-- ==== Sys2Proof/Word.lean ====
section
/-! DEFINITION. The word types of HCB (spec/00_scope.md rules R6 and R8): every value is unsigned. -/

namespace Sys2Proof

/-- A register, a host data word or a command word: 32 bits (R6, R21). -/
abbrev Word := BitVec 32

/-- A byte of IBUF or OBUF, or a code length entry of LENTAB: 8 bits (R6, R46, R48). -/
abbrev Byte := BitVec 8

/-- A symbol, 0..255 (R6, R13). -/
abbrev Symbol := BitVec 8

/-- A canonical code: an unsigned integer below 2^255 (R47). -/
abbrev Code := BitVec 255

end Sys2Proof
end

