-- ==== Sys2Proof/Syntax.lean ====
section
/-! DEFINITION. The sixteen commands of HCB (spec/30_encoding.md rule R88), one constructor per row of
spec/opcode_table.json, in the table's order. -/

namespace Sys2Proof

/-- A decoded command. A format S command carries SYM, a format B command NB and VAL, a format G command NB
(R82-R85). Operands that stand in registers are no part of the command word. -/
inductive Instr where
  | nop
  | clrerr
  | fclr
  | facc (sym : Symbol)
  | fscan
  | tbuild
  | bwreset
  | putbits (nb : BitVec 5) (val : BitVec 16)
  | flush
  | brreset
  | getbits (nb : BitVec 5)
  | encsym (sym : Symbol)
  | encode
  | decsym
  | decode
  | decall
  deriving DecidableEq, Repr

end Sys2Proof
end

