-- ==== Sys2Proof/WellFormed.lean ====
section
/-! DEFINITION. Which commands the encoding admits (spec/30_encoding.md rules R84 and R85: "NB must be in 1..16"). -/

namespace Sys2Proof

/-- NB is in 1..16. -/
abbrev bitCountOk (nb : BitVec 5) : Prop := 1 ≤ nb.toNat ∧ nb.toNat ≤ 16

/-- The command has an encoding: its NB field, where it has one, is in 1..16 (R84, R85). -/
abbrev Instr.WellFormed : Instr → Prop
  | .putbits nb _ => bitCountOk nb
  | .getbits nb => bitCountOk nb
  | .nop | .clrerr | .fclr | .facc _ | .fscan | .tbuild | .bwreset | .flush | .brreset | .encsym _
  | .encode | .decsym | .decode | .decall => True

end Sys2Proof
end

