-- ==== Sys2Proof/Decode.lean ====
section
/-! DEFINITION. Decoding a command word (spec/30_encoding.md rules R80-R89), and the encoder written from the same
tables. -/

namespace Sys2Proof

/-- Why a word is illegal (R89). Each of the three is BadCommand to the engine (R86). -/
inductive DecodeError where
  /-- OP is not in the table of rule R88. -/
  | reservedOpcode
  /-- A reserved operand bit is not 0. -/
  | reservedField
  /-- NB is 0 or above 16. -/
  | badBitCount
  deriving DecidableEq, Repr

/-- OP, bits [31:24] (R81). -/
def opField (w : Word) : BitVec 8 := w.extractLsb' 24 8

/-- SYM, bits [7:0] of format S (R83). -/
def symField (w : Word) : Symbol := w.extractLsb' 0 8

/-- NB, bits [20:16] of formats B and G (R84, R85). -/
def nbField (w : Word) : BitVec 5 := w.extractLsb' 16 5

/-- VAL, bits [15:0] of format B (R84). -/
def valField (w : Word) : BitVec 16 := w.extractLsb' 0 16

/-- Format N: bits [23:0] are 0 (R82, R86). -/
def formatN (w : Word) (i : Instr) : Except DecodeError Instr :=
  if w.extractLsb' 0 24 ≠ 0 then .error .reservedField else .ok i

/-- Format S: bits [23:8] are 0 (R83, R86). -/
def formatS (w : Word) (f : Symbol → Instr) : Except DecodeError Instr :=
  if w.extractLsb' 8 16 ≠ 0 then .error .reservedField else .ok (f (symField w))

/-- Format B: bits [23:21] are 0 and NB is in 1..16 (R84, R86). -/
def formatB (w : Word) (f : BitVec 5 → BitVec 16 → Instr) : Except DecodeError Instr :=
  if w.extractLsb' 21 3 ≠ 0 then .error .reservedField
  else if ¬ bitCountOk (nbField w) then .error .badBitCount
  else .ok (f (nbField w) (valField w))

/-- Format G: bits [23:21] and [15:0] are 0 and NB is in 1..16 (R85, R86). -/
def formatG (w : Word) (f : BitVec 5 → Instr) : Except DecodeError Instr :=
  if w.extractLsb' 21 3 ≠ 0 ∨ valField w ≠ 0 then .error .reservedField
  else if ¬ bitCountOk (nbField w) then .error .badBitCount
  else .ok (f (nbField w))

/-- `Decode(w)` (R86) over the opcode map (R88). -/
def decode (w : Word) : Except DecodeError Instr :=
  match opField w with
  | 0x00#8 => formatN w .nop
  | 0x01#8 => formatN w .clrerr
  | 0x10#8 => formatN w .fclr
  | 0x11#8 => formatS w .facc
  | 0x12#8 => formatN w .fscan
  | 0x20#8 => formatN w .tbuild
  | 0x30#8 => formatN w .bwreset
  | 0x31#8 => formatB w .putbits
  | 0x32#8 => formatN w .flush
  | 0x38#8 => formatN w .brreset
  | 0x39#8 => formatG w .getbits
  | 0x40#8 => formatS w .encsym
  | 0x41#8 => formatN w .encode
  | 0x50#8 => formatN w .decsym
  | 0x51#8 => formatN w .decode
  | 0x52#8 => formatN w .decall
  | _ => .error .reservedOpcode

/-- The word of a command: `(OP << 24) | fields` (R82-R85, R88, R91). -/
def encode : Instr → Word
  | .nop => 0x00#8 ++ 0#24
  | .clrerr => 0x01#8 ++ 0#24
  | .fclr => 0x10#8 ++ 0#24
  | .facc sym => 0x11#8 ++ 0#16 ++ sym
  | .fscan => 0x12#8 ++ 0#24
  | .tbuild => 0x20#8 ++ 0#24
  | .bwreset => 0x30#8 ++ 0#24
  | .putbits nb val => 0x31#8 ++ 0#3 ++ nb ++ val
  | .flush => 0x32#8 ++ 0#24
  | .brreset => 0x38#8 ++ 0#24
  | .getbits nb => 0x39#8 ++ 0#3 ++ nb ++ 0#16
  | .encsym sym => 0x40#8 ++ 0#16 ++ sym
  | .encode => 0x41#8 ++ 0#24
  | .decsym => 0x50#8 ++ 0#24
  | .decode => 0x51#8 ++ 0#24
  | .decall => 0x52#8 ++ 0#24

/-- The command word whose `nbits` bits are `w`, the bits above them 0: HCB has one length, 32 bits (R80). -/
def commandWord (nbits w : Nat) : Word := BitVec.ofNat 32 (w % 2 ^ nbits)

/-- What the decoder reads from a row of spec/opcode_table.json: a command is one 32-bit word, delivered whole in one
CMD write, so no byte order enters (R74, R80). -/
def decodeTableWord (nbits w : Nat) : Option Instr :=
  if nbits ≤ 32 then
    match decode (commandWord nbits w) with
    | .ok i => some i
    | .error _ => none
  else none

end Sys2Proof
end

