-- ==== Sys2Proof/Config.lean ====
section
/-! DEFINITION. What an implementation fixes (spec/00_scope.md rule R6) and the free values of the model
(spec/93_implementation_defined.md U1, U2, U3). None of the constants has a body, so a claim about the machine holds for
every value of them. -/

namespace Sys2Proof

/-- The three parameters of rule R6, in a form that admits exactly the values in their ranges: a buffer is
`4 * (m + 1)` bytes with `m < 16384` (a multiple of 4 in 4..65536), and the maximum length is `m + 1` with `m < 255`. -/
structure Params where
  ibufWordsMinusOne : Fin 16384
  obufWordsMinusOne : Fin 16384
  maxLenMinusOne    : Fin 255
  deriving DecidableEq, Repr, Inhabited

/-- IBUF_BYTES (R6). -/
def Params.ibufBytes (p : Params) : Nat := 4 * (p.ibufWordsMinusOne.val + 1)

/-- OBUF_BYTES (R6). -/
def Params.obufBytes (p : Params) : Nat := 4 * (p.obufWordsMinusOne.val + 1)

/-- MAX_LEN (R6). -/
def Params.maxLen (p : Params) : Nat := p.maxLenMinusOne.val + 1

/-- The parameters of the implementation at hand (R6; log entry 5). Every rule takes them as an argument; only the
machine's fixed entry points apply the rules to this constant. -/
opaque Config.params : Params

/-- FREE VALUE (U1, log entry 1): what IBUF byte `index` reads as while nothing has written it since reset number
`epoch`. -/
opaque Config.ibufReset : (epoch index : Nat) → Byte

/-- FREE VALUE (U2, log entry 1): what OBUF byte `index` reads as while nothing has written it since reset number
`epoch`. -/
opaque Config.obufReset : (epoch index : Nat) → Byte

/-- FREE VALUE (U3, log entry 2): the byte that draw number `draw` leaves in an OBUF byte a failed command wrote. -/
opaque Config.obufFailed : (draw : Nat) → Byte

end Sys2Proof
end

