-- ==== Sys2Proof/Machine/State.lean ====
section
/-! DEFINITION. The architectural state of HCB (spec/10_state.md rule R20: "exactly this"), its reset value (R53, R200),
and the model's own record of the world outside: the script of inputs still to come and the bus responses given. -/

namespace Sys2Proof.Machine

/-- The error codes of STATUS.ERRCODE (spec/60_exceptions.md R182). Codes 9..15 are never produced. -/
inductive ErrCode where
  | noError
  | badCommand
  | invalidHeader
  | truncatedPayload
  | symbolNotInTable
  | invalidCode
  | tableInvalid
  | rangeError
  | outputOverflow
  deriving DecidableEq, Repr

/-- Read or write (R61). -/
inductive AccessKind where
  | read
  | write
  deriving DecidableEq, Repr

/-- A host access `(kind, offset, size, data)` (R61): the offset is a byte offset in the 256 KiB window, the size is in
bytes, and `data` is the word a write carries (log entry 11). -/
structure Access where
  kind   : AccessKind
  offset : BitVec 18
  size   : Nat
  data   : Word
  deriving DecidableEq, Repr

/-- What the bus gives the host back (R62, R75). -/
inductive Response where
  /-- An accepted read: the word. -/
  | readData (w : Word)
  /-- An accepted write: no data. -/
  | writeDone
  /-- A bus error: no data and no effect (R62). -/
  | busError
  deriving DecidableEq, Repr

/-- One entry of the script of what happens next (R7, log entry 6). -/
inductive Input where
  /-- The host makes a bus access. -/
  | access (a : Access)
  /-- The reset input is applied (R200). -/
  | reset
  /-- The engine takes its step, if it has one (R180). -/
  | engineTurn
  deriving DecidableEq, Repr

/-- The state of HCB (R20), and after `pending` the model's own fields. -/
structure State where
  ie      : Bool               -- CTRL.IE (R24)
  busy    : Bool               -- STATUS.BUSY (R26)
  done    : Bool               -- STATUS.DONE (R27)
  tvalid  : Bool               -- STATUS.TVALID (R29)
  fovf    : Bool               -- STATUS.FOVF (R30)
  errCode : ErrCode            -- STATUS.ERRCODE (R28)
  errInfo : Word               -- ERRINFO (R33)
  rdata   : Word               -- RDATA (R34)
  iptr    : Word               -- IPTR (R35)
  icnt    : Word               -- ICNT (R35)
  optr    : Word               -- OPTR (R36)
  bwacc   : BitVec 8           -- BWSTATE.BWACC (R37)
  bwcnt   : BitVec 4           -- BWSTATE.BWCNT (R37)
  pad     : BitVec 3           -- BWSTATE.PAD (R37)
  brpos   : Word               -- BRPOS (R38)
  brlen   : Word               -- BRLEN (R39)
  brpad   : BitVec 3           -- BRPAD (R39)
  dcnt    : Word               -- DCNT (R40)
  ftotal  : Word               -- FTOTAL (R41)
  tsel    : Symbol             -- TSEL (R43)
  freq    : Vector Word 256    -- FREQ (R45)
  len     : Vector Byte 256    -- LENTAB (R46)
  code    : Vector Code 256    -- CODE (R47)
  ibuf    : List Host.Cell     -- IBUF bytes written since reset (R48, log entry 1)
  obuf    : List Host.Cell     -- OBUF bytes written since reset (R49, log entry 1)
  pending : Word               -- PENDING, meaningful while BUSY = 1 (R50, log entry 4)
  inputs    : List Input       -- MODEL: what happens next, first entry first (log entry 6)
  responses : List Response    -- MODEL: bus responses so far, newest first (log entry 6)
  epoch     : Nat              -- MODEL: resets taken; selects the draw of unwritten bytes (log entry 1)
  draws     : Nat              -- MODEL: bytes left unspecified by failed commands (log entry 2)
  deriving DecidableEq, Repr

/-- Why the machine stops with a fault. NO CONSTRUCTOR, because nothing stops HCB: a bus error is a response to the
host (R62, R184), and a failed command is rolled back and recorded (R181). Safe: no run of the hardware is cut off. -/
inductive Fault where
  deriving DecidableEq, Repr

/-- Why a step has no meaning. -/
inductive Refusal where
  /-- An instruction without a meaning yet, rejected in `exec`'s arm by its mnemonic. No arm raises it. Safe. -/
  | notModelled (mnemonic : String)
  deriving DecidableEq, Repr

/-- The machine right after reset (R53, R200). The spec gives no value for CODE (log entry 3) and no word for PENDING
(log entry 4); no byte of IBUF or OBUF has been written (log entry 1); no input is scripted (log entry 6). -/
def State.reset : State where
  ie := false
  busy := false
  done := false
  tvalid := false
  fovf := false
  errCode := .noError
  errInfo := 0
  rdata := 0
  iptr := 0
  icnt := 0
  optr := 0
  bwacc := 0
  bwcnt := 0
  pad := 0
  brpos := 0
  brlen := 0
  brpad := 0
  dcnt := 0
  ftotal := 0
  tsel := 0
  freq := Vector.replicate 256 0
  len := Vector.replicate 256 0
  code := Vector.replicate 256 0
  ibuf := []
  obuf := []
  pending := 0
  inputs := []
  responses := []
  epoch := 0
  draws := 0

end Sys2Proof.Machine
end

