-- ==== Sys2Proof/Machine/Ops.lean ====
section
/-! DEFINITION. The named operations over the byte arrays, the tables and the registers of HCB; the result of a
command's rule; completing a command (spec/60_exceptions.md R180), taking an error (R181) and returning from one (R101). -/

namespace Sys2Proof.Machine

/-! ### Byte arrays: the cells written since reset (R48, R49; log entry 1) -/

/-- What an index that is not listed holds: no byte written since reset. -/
def Memory.unlisted : Option Byte := none

/-- The byte written at index `k` since reset, if any. -/
def Memory.written : List Host.Cell → Nat → Option Byte
  | [], _ => Memory.unlisted
  | c :: m, k => if c.1 = k then some c.2 else Memory.written m k

/-- Write byte `b` at index `k`, keeping the cells in rising order. -/
def Memory.write : List Host.Cell → Nat → Byte → List Host.Cell
  | [], k, b => [(k, b)]
  | c :: m, k, b =>
    if k < c.1 then (k, b) :: c :: m
    else if k = c.1 then (k, b) :: m
    else c :: Memory.write m k b

/-- The canonical form: indices strictly rising, and no cell equal to what an unlisted index holds. -/
abbrev Memory.wf (m : List Host.Cell) : Prop :=
  (m.map Prod.fst).Pairwise (· < ·) ∧ ∀ c ∈ m, some c.2 ≠ Memory.unlisted

/-- `MemRead(IBUF, k, 1)` (R10): a byte nothing has written since reset reads as the draw of that reset (U1). -/
def State.ibufByte (s : State) (k : Nat) : Byte :=
  (Memory.written s.ibuf k).getD (Config.ibufReset s.epoch k)

/-- Byte `k` of OBUF as a host read returns it (R49, U2). The engine never reads OBUF (R10). -/
def State.obufByte (s : State) (k : Nat) : Byte :=
  (Memory.written s.obuf k).getD (Config.obufReset s.epoch k)

/-- Byte lane `j` of a host word: bits [8j+7 : 8j] (R66). -/
def lane (w : Word) (j : Nat) : Byte := w.extractLsb' (8 * j) 8

/-- The host word of four entries, entry 0 in the lowest lane (R66). -/
def packLanes (b0 b1 b2 b3 : Byte) : Word := b3 ++ b2 ++ b1 ++ b0

/-! ### Tables of 256 entries indexed by a symbol (R45-R47) -/

/-- Entry `x` of a table. -/
def tableAt {α : Type} (t : Vector α 256) (x : Symbol) : α := t[x.toNat]'(x.isLt)

/-- The table with entry `x` replaced by `v`. -/
def tableSet {α : Type} (t : Vector α 256) (x : Symbol) (v : α) : Vector α 256 := t.set x.toNat v (x.isLt)

/-- LEN[x] as a number (R46). -/
def lenOf (t : Vector Byte 256) (x : Symbol) : Nat := (tableAt t x).toNat

/-- CODE[x] as a number (R47). -/
def codeOf (t : Vector Code 256) (x : Symbol) : Nat := (tableAt t x).toNat

/-- The 256 symbols in increasing order. -/
def symbols : List Symbol := (List.range 256).map (BitVec.ofNat 8)

/-! ### Register updates -/

/-- `MemWrite(OBUF, k, 1, b)` (R10). -/
def State.putObuf (s : State) (k : Nat) (b : Byte) : State := { s with obuf := Memory.write s.obuf k b }

/-- Write OPTR, BWACC and BWCNT, the bit writer's position (R36, R37). -/
def State.setWriter (s : State) (optr : Word) (bwacc : BitVec 8) (bwcnt : BitVec 4) : State :=
  { s with optr := optr, bwacc := bwacc, bwcnt := bwcnt }

/-- Write PAD (R37). -/
def State.setPad (s : State) (pad : BitVec 3) : State := { s with pad := pad }

/-- Write BRPOS (R38). -/
def State.setBrpos (s : State) (brpos : Word) : State := { s with brpos := brpos }

/-- Write RDATA (R34). -/
def State.setRdata (s : State) (rdata : Word) : State := { s with rdata := rdata }

/-- Write the frequency accumulator: FREQ, FTOTAL and FOVF (R30, R41, R45). -/
def State.setCounts (s : State) (freq : Vector Word 256) (ftotal : Word) (fovf : Bool) : State :=
  { s with freq := freq, ftotal := ftotal, fovf := fovf }

/-- Write CODE and set TVALID (R29, R47). -/
def State.setTable (s : State) (code : Vector Code 256) : State := { s with code := code, tvalid := true }

/-- Write ERRCODE and ERRINFO, which are only written together (R33). -/
def State.setError (s : State) (e : ErrCode) (info : Word) : State := { s with errCode := e, errInfo := info }

/-- The end of every engine step: BUSY <- 0, DONE <- 1 (R180). -/
def State.complete (s : State) : State := { s with busy := false, done := true }

/-- Acceptance of a CMD write: PENDING <- w, BUSY <- 1, DONE <- 0 and nothing else (R65). -/
def State.accept (s : State) (w : Word) : State := { s with pending := w, busy := true, done := false }

/-! ### The result of a command's rule -/

/-- A rule's pseudocode either runs to its end with a value, or reaches `raise E(info)` in some state (R11). -/
inductive Result (α : Type) where
  | ok (a : α) (s : State)
  | raised (e : ErrCode) (info : Word) (s : State)

/-- Run one piece of pseudocode after another; code after a `raise` does not run (R11). -/
def Result.bind {α β : Type} (r : Result α) (f : α → State → Result β) : Result β :=
  match r with
  | .ok a s => f a s
  | .raised e info s => .raised e info s

/-! ### Taking an error and returning from it -/

/-- OBUF with the `n` bytes from index `k` on replaced by free bytes, draw numbers from `d` on (U3, log entry 2). -/
def unspecify : (n k d : Nat) → List Host.Cell → List Host.Cell
  | 0, _, _, m => m
  | n + 1, k, d, m => unspecify n (k + 1) (d + 1) (Memory.write m k (Config.obufFailed d))

/-- The number of OBUF bytes a command has written between its start `s` and the state `at'`. DEDUCED: every command
that can raise writes OBUF only at OPTR and then advances OPTR by one (R130, R137), so the indices written are
OPTR at the start up to, but not including, OPTR at the raise (log entry 7). -/
def bytesWritten (s at' : State) : Nat := at'.optr.toNat - s.optr.toNat

/-- The effect of `raise e(info)` (R181), `s` being the command's start state and `at'` the state at the raise: every
register and table as at the start, the OBUF bytes written unspecified, ERRCODE and ERRINFO recorded. -/
def takeError (e : ErrCode) (info : Word) (s at' : State) : State :=
  let n := bytesWritten s at'
  { s with
    obuf := unspecify n s.optr.toNat s.draws s.obuf
    draws := s.draws + n
    errCode := e
    errInfo := info }

/-- The way out of the error state (R101, R186): ERRCODE <- 0, ERRINFO <- 0. -/
def returnFromError (s : State) : State := s.setError .noError 0

/-- A decoded command's whole step (R180): its rule, then either its state or the error taken, then completion. -/
def runCommand (rule : State → Result Unit) (s : State) : State :=
  match rule s with
  | .ok _ t => t.complete
  | .raised e info at' => (takeError e info s at').complete

/-- The effect of reset on a machine that already ran (R200, R201): the reset state, with a new draw for every byte of
the buffers (U5). What is still to come and what the bus has answered belong to the world outside and stay. -/
def resetFrom (s : State) : State :=
  { State.reset with
    inputs := s.inputs
    responses := s.responses
    epoch := s.epoch + 1
    draws := s.draws }

end Sys2Proof.Machine
end

