-- ==== Sys2Proof/Machine/Operands.lean ====
section
/-! DEFINITION. How a command reads its operands: the input range IPTR/ICNT, the bit reader's bound BRLEN/BRPAD and the
bits of its stream, and the literal of PUTBITS (spec/30_encoding.md R87, spec/43_bit_io.md R132-R134). -/

namespace Sys2Proof.Machine

/-- VAL[NB-1:0]: the bits of the literal that PUTBITS uses (R87). -/
def literalBits (nb : BitVec 5) (val : BitVec 16) : Nat := val.toNat % 2 ^ nb.toNat

/-- `IPTR + ICNT <= IBUF_BYTES`, in unbounded arithmetic (R35, R113, R151). -/
def inputRangeFits (p : Params) (s : State) : Bool := decide (s.iptr.toNat + s.icnt.toNat ≤ p.ibufBytes)

/-- `Limit() = max(0, 8 * BRLEN - BRPAD)` (R132); subtraction on Nat stops at 0. -/
def State.limit (s : State) : Nat := 8 * s.brlen.toNat - s.brpad.toNat

/-- Bit `q` of the input stream: bit `7 - (q mod 8)` of IBUF byte `q div 8` (R38, R67). -/
def State.streamBit (s : State) (q : Nat) : Bool := (s.ibufByte (q / 8)).getLsbD (7 - q % 8)

/-- `CheckReader()` (R134): RangeError(1) if BRLEN exceeds IBUF_BYTES. -/
def checkReader (p : Params) (s : State) : Result Unit :=
  if p.ibufBytes < s.brlen.toNat then .raised .rangeError 1 s else .ok () s

/-- The check of ENCSYM, ENCODE, DECSYM, DECODE and DECALL that a table is built: TableInvalid(0) (R150, R161). -/
def checkTable (s : State) : Result Unit :=
  if s.tvalid = false then .raised .tableInvalid 0 s else .ok () s

/-- The check of FSCAN and ENCODE that the input range lies in IBUF: RangeError(0) (R113, R151). -/
def checkInputRange (p : Params) (s : State) : Result Unit :=
  if inputRangeFits p s then .ok () s else .raised .rangeError 0 s

end Sys2Proof.Machine
end

