-- ==== Sys2Proof/Machine/Flags.lean ====
section
/-! DEFINITION. The flags that are computed and not stored, the words of STATUS, BWSTATE and TCODE, the interrupt
output, and the saturating counters that set FOVF (spec/10_state.md R24-R31, R37, R42, R44, R52; spec/41_frequency.md
R110). -/

namespace Sys2Proof.Machine

/-- The code in STATUS[11:8] (R182). -/
def ErrCode.bits : ErrCode → BitVec 4
  | .noError => 0
  | .badCommand => 1
  | .invalidHeader => 2
  | .truncatedPayload => 3
  | .symbolNotInTable => 4
  | .invalidCode => 5
  | .tableInvalid => 6
  | .rangeError => 7
  | .outputOverflow => 8

/-- STATUS.ERR: ERRCODE is not 0 (R28). -/
def State.err (s : State) : Bool := decide (s.errCode ≠ .noError)

/-- STATUS.BREOF: `BRPOS >= Limit()` (R31). -/
def State.breof (s : State) : Bool := decide (s.limit ≤ s.brpos.toNat)

/-- The word STATUS reads as (R25). -/
def State.statusWord (s : State) : Word :=
  0#20 ++ s.errCode.bits ++ 0#2 ++ BitVec.ofBool s.breof ++ BitVec.ofBool s.fovf ++ BitVec.ofBool s.tvalid
    ++ BitVec.ofBool s.err ++ BitVec.ofBool s.done ++ BitVec.ofBool s.busy

/-- The word BWSTATE reads as (R37). -/
def State.bwstateWord (s : State) : Word := 0#13 ++ s.pad ++ 0#4 ++ s.bwcnt ++ s.bwacc

/-- The `irq` output: CTRL.IE and STATUS.DONE (R52, R187). -/
def State.irq (s : State) : Bool := s.ie && s.done

/-- The word FDIST reads as: how many symbols have a count that is not 0 (R42). -/
def State.fdistWord (s : State) : Word := BitVec.ofNat 32 (symbols.countP fun x => decide (tableAt s.freq x ≠ 0))

/-- The word TCODEk reads as (R44). -/
def State.tcodeWord (s : State) (k : Nat) : Word :=
  if s.tvalid then ((tableAt s.code s.tsel).setWidth 256).extractLsb' (32 * k) 32 else 0

/-- A 32-bit counter after one more count: it never wraps (R110). -/
def countUp (c : Word) : Word := if c = 0xFFFFFFFF#32 then c else c + 1

/-- Whether one more count is lost, which sets FOVF (R30, R110). -/
def saturated (c : Word) : Bool := decide (c = 0xFFFFFFFF#32)

end Sys2Proof.Machine
end

