-- ==== Sys2Proof/Machine/Bus.lean ====
section
/-! DEFINITION. Host bus accesses: the address map, what each mapped register or window word reads as and what a write
does to it, bus errors and the busy rule (spec/10_state.md R21-R49, spec/20_memory.md R60-R66). -/

namespace Sys2Proof.Machine

/-- What a mapped offset names (R21). -/
inductive Target where
  | id | ibufsz | obufsz | maxlen | ctrl | status | cmd | errinfo | rdata | iptr | icnt | optr | bwstate | brpos
  | brlen | brpad | dcnt | ftotal | fdist | tsel
  /-- TCODEk. -/
  | tcode (k : Nat)
  /-- FREQ[x]. -/
  | freq (x : Symbol)
  /-- LENTAB word w, w < 64. -/
  | lentab (w : Nat)
  /-- IBUF word w. -/
  | ibufWord (w : Nat)
  /-- OBUF word w. -/
  | obufWord (w : Nat)
  deriving DecidableEq, Repr

/-- The register at word index `i`, offset `4 * i`, of the register file 0x000-0x06C (R21). -/
def registerAt (i : Nat) : Option Target :=
  match i with
  | 0 => some .id
  | 1 => some .ibufsz
  | 2 => some .obufsz
  | 3 => some .maxlen
  | 4 => some .ctrl
  | 5 => some .status
  | 6 => some .cmd
  | 7 => some .errinfo
  | 8 => some .rdata
  | 9 => some .iptr
  | 10 => some .icnt
  | 11 => some .optr
  | 12 => some .bwstate
  | 13 => some .brpos
  | 14 => some .brlen
  | 15 => some .brpad
  | 16 => some .dcnt
  | 17 => some .ftotal
  | 18 => some .fdist
  | 19 => some .tsel
  | n + 20 => if n < 8 then some (.tcode n) else none

/-- The address map: what an aligned offset names, `none` where it is unmapped (R21, R62). -/
def targetAt (p : Params) (offset : Nat) : Option Target :=
  if offset < 0x70 then registerAt (offset / 4)
  else if offset < 0x400 then none
  else if offset < 0x800 then some (.freq (BitVec.ofNat 8 ((offset - 0x400) / 4)))
  else if offset < 0x900 then some (.lentab ((offset - 0x800) / 4))
  else if offset < 0x10000 then none
  else if offset < 0x20000 then
    if (offset - 0x10000) / 4 < p.ibufBytes / 4 then some (.ibufWord ((offset - 0x10000) / 4)) else none
  else if offset < 0x30000 then
    if (offset - 0x20000) / 4 < p.obufBytes / 4 then some (.obufWord ((offset - 0x20000) / 4)) else none
  else none

/-- The symbol of entry `4 * w + j` of LENTAB (R46). -/
def lentabSymbol (w j : Nat) : Symbol := BitVec.ofNat 8 (4 * w + j)

/-- The word an accepted read returns (R22-R49, R63). -/
def readTarget (p : Params) (s : State) : Target → Word
  | .id => 0x48554646
  | .ibufsz => BitVec.ofNat 32 p.ibufBytes
  | .obufsz => BitVec.ofNat 32 p.obufBytes
  | .maxlen => BitVec.ofNat 32 p.maxLen
  | .ctrl => 0#31 ++ BitVec.ofBool s.ie
  | .status => s.statusWord
  | .cmd => 0
  | .errinfo => s.errInfo
  | .rdata => s.rdata
  | .iptr => s.iptr
  | .icnt => s.icnt
  | .optr => s.optr
  | .bwstate => s.bwstateWord
  | .brpos => s.brpos
  | .brlen => s.brlen
  | .brpad => s.brpad.setWidth 32
  | .dcnt => s.dcnt
  | .ftotal => s.ftotal
  | .fdist => s.fdistWord
  | .tsel => s.tsel.setWidth 32
  | .tcode k => s.tcodeWord k
  | .freq x => tableAt s.freq x
  | .lentab w => packLanes (tableAt s.len (lentabSymbol w 0)) (tableAt s.len (lentabSymbol w 1))
      (tableAt s.len (lentabSymbol w 2)) (tableAt s.len (lentabSymbol w 3))
  | .ibufWord w => packLanes (s.ibufByte (4 * w)) (s.ibufByte (4 * w + 1)) (s.ibufByte (4 * w + 2))
      (s.ibufByte (4 * w + 3))
  | .obufWord w => packLanes (s.obufByte (4 * w)) (s.obufByte (4 * w + 1)) (s.obufByte (4 * w + 2))
      (s.obufByte (4 * w + 3))

/-- The cells with the four bytes of word `w` replaced by the lanes of `d` (R66). -/
def writeLanes (m : List Host.Cell) (w : Nat) (d : Word) : List Host.Cell :=
  Memory.write (Memory.write (Memory.write (Memory.write m (4 * w) (lane d 0)) (4 * w + 1) (lane d 1))
    (4 * w + 2) (lane d 2)) (4 * w + 3) (lane d 3)

/-- LENTAB with the four entries of word `w` replaced by the lanes of `d` (R46). -/
def writeLengths (t : Vector Byte 256) (w : Nat) (d : Word) : Vector Byte 256 :=
  tableSet (tableSet (tableSet (tableSet t (lentabSymbol w 0) (lane d 0)) (lentabSymbol w 1) (lane d 1))
    (lentabSymbol w 2) (lane d 2)) (lentabSymbol w 3) (lane d 3)

/-- What an accepted write of `d` does (R63): read-write registers take the bits that are not reserved, STATUS is write
1 to clear on DONE (R25), CMD latches a command (R65), a LENTAB word clears TVALID (R46), read-only targets ignore it. -/
def writeTarget (d : Word) (s : State) : Target → State
  | .ctrl => { s with ie := d.getLsbD 0 }
  | .status => { s with done := s.done && !d.getLsbD 1 }
  | .cmd => s.accept d
  | .iptr => { s with iptr := d }
  | .icnt => { s with icnt := d }
  | .brlen => { s with brlen := d }
  | .brpad => { s with brpad := d.extractLsb' 0 3 }
  | .dcnt => { s with dcnt := d }
  | .tsel => { s with tsel := d.extractLsb' 0 8 }
  | .lentab w => { s with len := writeLengths s.len w d, tvalid := false }
  | .ibufWord w => { s with ibuf := writeLanes s.ibuf w d }
  | .obufWord w => { s with obuf := writeLanes s.obuf w d }
  | .id | .ibufsz | .obufsz | .maxlen | .errinfo | .rdata | .optr | .bwstate | .brpos | .ftotal | .fdist | .tcode _
  | .freq _ => s

/-- The accesses the block takes while BUSY = 1 (R64). -/
def allowedWhileBusy : AccessKind → Target → Bool
  | .read, .id | .read, .ibufsz | .read, .obufsz | .read, .maxlen | .read, .ctrl | .read, .status => true
  | .write, .ctrl | .write, .status => true
  | _, _ => false

/-- The target of an access the block accepts, `none` where it bus-errors (R61, R62, R64). -/
def acceptedTarget (p : Params) (s : State) (a : Access) : Option Target :=
  if a.size ≠ 4 then none
  else if a.offset.toNat % 4 ≠ 0 then none
  else
    match targetAt p a.offset.toNat with
    | none => none
    | some t => if s.busy && !allowedWhileBusy a.kind t then none else some t

/-- One host access: the response and the state after it (R61-R66). A bus error has no effect (R62), and neither has a
read (R63). -/
def hostAccess (p : Params) (a : Access) (s : State) : Response × State :=
  match acceptedTarget p s a with
  | none => (.busError, s)
  | some t =>
    match a.kind with
    | .read => (.readData (readTarget p s t), s)
    | .write => (.writeDone, writeTarget a.data s t)

end Sys2Proof.Machine
end

