-- ==== Sys2Proof/Machine/CodeTable.lean ====
section
/-! DEFINITION. The canonical code table: validity of LENTAB, canonical assignment and TBUILD
(spec/42_code_table.md R120-R122; spec/90_conflicts.md C1 for the plus one). -/

namespace Sys2Proof.Machine

/-- The present symbols, LEN[x] > 0, in increasing order (R13). -/
def presentSymbols (t : Vector Byte 256) : List Symbol := symbols.filter fun x => decide (0 < lenOf t x)

/-- The lowest symbol whose length exceeds MAX_LEN, if any (R122). -/
def firstTooLong (p : Params) (t : Vector Byte 256) : Option Symbol :=
  symbols.find? fun x => decide (p.maxLen < lenOf t x)

/-- The Kraft sum in units of `2^-MAX_LEN`, exact (R120). -/
def kraftSum (p : Params) (t : Vector Byte 256) : Nat :=
  ((presentSymbols t).map fun x => 2 ^ (p.maxLen - lenOf t x)).sum

/-- The order of the key `(LEN[x], x)` (R121). -/
abbrev keyLe (t : Vector Byte 256) (x y : Symbol) : Prop :=
  lenOf t x < lenOf t y ∨ (lenOf t x = lenOf t y ∧ x.toNat ≤ y.toNat)

/-- The present symbols sorted by `(LEN[x], x)` (R121). -/
def canonicalOrder (t : Vector Byte 256) : List Symbol := (presentSymbols t).insertionSort (keyLe t)

/-- The code of a symbol of length `l`: 0 for the first in the order, else one more than the code before it, shifted
left by the growth in length (R121). -/
def nextCode (before : Option (Nat × Nat)) (l : Nat) : Nat :=
  match before with
  | none => 0
  | some (c, l') => (c + 1) <<< (l - l')

/-- The loop of `Assign()` over the rest of the order, `before` being the code and length just assigned (R121). -/
def assignFrom (t : Vector Byte 256) : List Symbol → Option (Nat × Nat) → Vector Code 256 → Vector Code 256
  | [], _, codes => codes
  | x :: xs, before, codes =>
    assignFrom t xs (some (nextCode before (lenOf t x), lenOf t x))
      (tableSet codes x (BitVec.ofNat 255 (nextCode before (lenOf t x))))

/-- `Assign()` (R121): absent symbols get 0, the others their canonical code. -/
def canonicalCodes (t : Vector Byte 256) : Vector Code 256 :=
  assignFrom t (canonicalOrder t) none (Vector.replicate 256 0)

/-- TBUILD (R122): the length check, then the Kraft check, then the assignment. -/
def tbuildRule (p : Params) (s : State) : Result Unit :=
  match firstTooLong p s.len with
  | some x => .raised .invalidHeader (0x00020000#32 ||| x.setWidth 32) s
  | none =>
    if 2 ^ p.maxLen < kraftSum p s.len then .raised .invalidHeader 0x00010000#32 s
    else .ok () (s.setTable (canonicalCodes s.len))

/-- TBUILD as an engine step (R122, R180). -/
def execTbuild (s : State) : Host.Outcome State Fault Refusal := .next (runCommand (tbuildRule Config.params) s)

end Sys2Proof.Machine
end

