-- ==== Sys2Proof/Machine/Control.lean ====
section
/-! DEFINITION. NOP and CLRERR (spec/40_control.md R100, R101). -/

namespace Sys2Proof.Machine

/-- NOP (R100): nothing. -/
def nopRule (s : State) : Result Unit := .ok () s

/-- CLRERR (R101): ERRCODE <- 0, ERRINFO <- 0. -/
def clrerrRule (s : State) : Result Unit := .ok () (returnFromError s)

/-- NOP as an engine step (R100, R180). -/
def execNop (s : State) : Host.Outcome State Fault Refusal := .next (runCommand nopRule s)

/-- CLRERR as an engine step (R101, R180). -/
def execClrerr (s : State) : Host.Outcome State Fault Refusal := .next (runCommand clrerrRule s)

end Sys2Proof.Machine
end

