-- ==== Sys2Proof/Machine/BitIo.lean ====
section
/-! DEFINITION. The bit writer and the bit reader: PutBit, PutBits, GetBit, BWRESET, PUTBITS, FLUSH, BRRESET and GETBITS
(spec/43_bit_io.md R130-R139). Bits go MSB first (spec/20_memory.md R67). -/

namespace Sys2Proof.Machine

/-- `{BWACC[6:0], b}` (R130). -/
def shiftIn (acc : BitVec 8) (b : Bool) : BitVec 8 := acc.extractLsb' 0 7 ++ BitVec.ofBool b

/-- `PutBit(b)` (R130): the eighth bit completes a byte, and only then is the bound of OBUF checked. -/
def putBit (p : Params) (b : Bool) (s : State) : Result Unit :=
  if s.bwcnt = 7 then
    if p.obufBytes ≤ s.optr.toNat then .raised .outputOverflow 0 s
    else .ok () ((s.putObuf s.optr.toNat (shiftIn s.bwacc b)).setWriter (s.optr + 1) 0 0)
  else .ok () (s.setWriter s.optr (shiftIn s.bwacc b) (s.bwcnt + 1))

/-- `PutBits(n, v)` (R131): bits n-1 down to 0 of v. -/
def putBits (p : Params) : (n v : Nat) → State → Result Unit
  | 0, _, s => .ok () s
  | n + 1, v, s => (putBit p (v.testBit n) s).bind fun _ s => putBits p n v s

/-- `GetBit()` (R133): the bit at BRPOS, and BRPOS advanced by one. -/
def getBit (s : State) : Bool × State := (s.streamBit s.brpos.toNat, s.setBrpos (s.brpos + 1))

/-- The loop of GETBITS (R139): `n` times `v <- 2*v + GetBit()`. -/
def getBits : (n v : Nat) → State → Nat × State
  | 0, v, s => (v, s)
  | n + 1, v, s => getBits n (2 * v + (getBit s).1.toNat) (getBit s).2

/-- BWRESET (R135). -/
def bwresetRule (s : State) : Result Unit := .ok () ((s.setWriter 0 0 0).setPad 0)

/-- PUTBITS (R136). -/
def putbitsRule (p : Params) (nb : BitVec 5) (val : BitVec 16) (s : State) : Result Unit :=
  putBits p nb.toNat (literalBits nb val) s

/-- FLUSH (R137). -/
def flushRule (p : Params) (s : State) : Result Unit :=
  if 0 < s.bwcnt.toNat then
    if p.obufBytes ≤ s.optr.toNat then .raised .outputOverflow 0 s
    else .ok () (((s.putObuf s.optr.toNat (s.bwacc <<< (8 - s.bwcnt.toNat))).setWriter (s.optr + 1) 0 0).setPad
      (BitVec.ofNat 3 (8 - s.bwcnt.toNat)))
  else .ok () (s.setPad 0)

/-- BRRESET (R138). -/
def brresetRule (s : State) : Result Unit := .ok () (s.setBrpos 0)

/-- GETBITS (R139). -/
def getbitsRule (p : Params) (nb : BitVec 5) (s : State) : Result Unit :=
  (checkReader p s).bind fun _ s =>
    if s.limit < s.brpos.toNat + nb.toNat then .raised .truncatedPayload 0 s
    else .ok () ((getBits nb.toNat 0 s).2.setRdata (BitVec.ofNat 32 (getBits nb.toNat 0 s).1))

/-- BWRESET as an engine step (R135, R180). -/
def execBwreset (s : State) : Host.Outcome State Fault Refusal := .next (runCommand bwresetRule s)

/-- PUTBITS as an engine step (R136, R180). -/
def execPutbits (nb : BitVec 5) (val : BitVec 16) (s : State) : Host.Outcome State Fault Refusal :=
  .next (runCommand (putbitsRule Config.params nb val) s)

/-- FLUSH as an engine step (R137, R180). -/
def execFlush (s : State) : Host.Outcome State Fault Refusal := .next (runCommand (flushRule Config.params) s)

/-- BRRESET as an engine step (R138, R180). -/
def execBrreset (s : State) : Host.Outcome State Fault Refusal := .next (runCommand brresetRule s)

/-- GETBITS as an engine step (R139, R180). -/
def execGetbits (nb : BitVec 5) (s : State) : Host.Outcome State Fault Refusal :=
  .next (runCommand (getbitsRule Config.params nb) s)

end Sys2Proof.Machine
end

