-- ==== Sys2Proof/Machine/Decoder.lean ====
section
/-! DEFINITION. The decoder: DecodeSym, DECSYM, DECODE and DECALL (spec/45_decoder.md R160-R163). -/

namespace Sys2Proof.Machine

/-- The present symbol whose code is the `l` bits with value `v`, if there is one (R160): a leaf. -/
def leafAt (s : State) (l v : Nat) : Option Symbol :=
  symbols.find? fun x => decide (0 < lenOf s.len x ∧ lenOf s.len x = l ∧ codeOf s.code x = v)

/-- Some present symbol has a longer code that starts with the `l` bits of value `v` (R160): an internal node. -/
def hasLonger (s : State) (l v : Nat) : Bool :=
  symbols.any fun x => decide (l < lenOf s.len x ∧ codeOf s.code x >>> (lenOf s.len x - l) = v)

/-- The loop of `DecodeSym(k)` (R160), `l` bits with value `v` collected so far. A code has at most 255 bits, so the
loop ends by itself within 255 passes; `fuel` only makes the recursion structural, and its end is never reached from
`decodeSym` (Sys2Proof.Machine.decodeLoop_fuel; DEDUCED, log entry 10). -/
def decodeLoop (k : Nat) : (fuel l v : Nat) → State → Result Symbol
  | 0, _, _, s => .raised .invalidCode (s.brpos - 1) s
  | fuel + 1, l, v, s =>
    if s.limit ≤ s.brpos.toNat then .raised .truncatedPayload (BitVec.ofNat 32 k) s
    else
      let v' := 2 * v + (getBit s).1.toNat
      match leafAt s (l + 1) v' with
      | some x => .ok x (getBit s).2
      | none =>
        if hasLonger s (l + 1) v' then decodeLoop k fuel (l + 1) v' (getBit s).2
        else .raised .invalidCode s.brpos (getBit s).2

/-- `DecodeSym(k)` (R160). -/
def decodeSym (k : Nat) (s : State) : Result Symbol := decodeLoop k 255 0 0 s

/-- Symbol number `k` of DECODE or DECALL: decode it, then append it to the writer as 8 bits (R162, R163). -/
def decodeOne (p : Params) (k : Nat) (s : State) : Result Unit :=
  (decodeSym k s).bind fun x s => putBits p 8 x.toNat s

/-- The loop of DECODE: `n` symbols still to do, the next one number `k` (R162). -/
def decodeFrom (p : Params) : (n k : Nat) → State → Result Unit
  | 0, _, s => .ok () s
  | n + 1, k, s => (decodeOne p k s).bind fun _ s => decodeFrom p n (k + 1) s

/-- The loop of DECALL, `k` symbols done; its value is how many were decoded. Every pass consumes at least one bit, so
`Limit() - BRPOS` passes are enough (R163). -/
def decodeAllFrom (p : Params) : (fuel k : Nat) → State → Result Nat
  | 0, k, s => .ok k s
  | fuel + 1, k, s =>
    if s.brpos.toNat < s.limit then (decodeOne p k s).bind fun _ s => decodeAllFrom p fuel (k + 1) s
    else .ok k s

/-- The checks every decoding command makes first: TableInvalid, then RangeError(1) (R161-R163). -/
def checkDecoder (p : Params) (s : State) : Result Unit := (checkTable s).bind fun _ s => checkReader p s

/-- DECSYM (R161). -/
def decsymRule (p : Params) (s : State) : Result Unit :=
  (checkDecoder p s).bind fun _ s => (decodeSym 0 s).bind fun x s => .ok () (s.setRdata (x.setWidth 32))

/-- DECODE (R162). -/
def decodeRule (p : Params) (s : State) : Result Unit :=
  (checkDecoder p s).bind fun _ s =>
    (decodeFrom p s.dcnt.toNat 0 s).bind fun _ s => .ok () (s.setRdata s.dcnt)

/-- DECALL (R163). -/
def decallRule (p : Params) (s : State) : Result Unit :=
  (checkDecoder p s).bind fun _ s =>
    (decodeAllFrom p (s.limit - s.brpos.toNat) 0 s).bind fun k s => .ok () (s.setRdata (BitVec.ofNat 32 k))

/-- DECSYM as an engine step (R161, R180). -/
def execDecsym (s : State) : Host.Outcome State Fault Refusal := .next (runCommand (decsymRule Config.params) s)

/-- DECODE as an engine step (R162, R180). -/
def execDecode (s : State) : Host.Outcome State Fault Refusal := .next (runCommand (decodeRule Config.params) s)

/-- DECALL as an engine step (R163, R180). -/
def execDecall (s : State) : Host.Outcome State Fault Refusal := .next (runCommand (decallRule Config.params) s)

end Sys2Proof.Machine
end

