-- ==== Sys2Proof/Machine/Encoder.lean ====
section
/-! DEFINITION. The encoder: ENCSYM and ENCODE (spec/44_encoder.md R150, R151). -/

namespace Sys2Proof.Machine

/-- The code of a symbol in the bit writer: `PutBits(LEN[x], CODE[x])` (R150, R151). -/
def putCode (p : Params) (x : Symbol) (s : State) : Result Unit := putBits p (lenOf s.len x) (codeOf s.code x) s

/-- ERRINFO of SymbolNotInTable: `(k << 8) | x` (R183). -/
def absentInfo (k : Nat) (x : Symbol) : Word := (BitVec.ofNat 32 k <<< 8) ||| x.setWidth 32

/-- The code of symbol `x`, the `k`-th of its command, or SymbolNotInTable (R150, R151). -/
def encodeSym (p : Params) (k : Nat) (x : Symbol) (s : State) : Result Unit :=
  if lenOf s.len x = 0 then .raised .symbolNotInTable (absentInfo k x) s else putCode p x s

/-- The loop of ENCODE: `n` bytes still to do, the next one the `k`-th from IPTR (R151). -/
def encodeFrom (p : Params) : (n k : Nat) → State → Result Unit
  | 0, _, s => .ok () s
  | n + 1, k, s =>
    (encodeSym p k (s.ibufByte (s.iptr.toNat + k)) s).bind fun _ s => encodeFrom p n (k + 1) s

/-- ENCSYM (R150). -/
def encsymRule (p : Params) (sym : Symbol) (s : State) : Result Unit :=
  (checkTable s).bind fun _ s => encodeSym p 0 sym s

/-- ENCODE (R151). -/
def encodeRule (p : Params) (s : State) : Result Unit :=
  (checkTable s).bind fun _ s => (checkInputRange p s).bind fun _ s => encodeFrom p s.icnt.toNat 0 s

/-- ENCSYM as an engine step (R150, R180). -/
def execEncsym (sym : Symbol) (s : State) : Host.Outcome State Fault Refusal :=
  .next (runCommand (encsymRule Config.params sym) s)

/-- ENCODE as an engine step (R151, R180). -/
def execEncode (s : State) : Host.Outcome State Fault Refusal := .next (runCommand (encodeRule Config.params) s)

end Sys2Proof.Machine
end

