-- ==== Sys2Proof/Machine/Frequency.lean ====
section
/-! DEFINITION. The frequency accumulator: Inc, FCLR, FACC and FSCAN (spec/41_frequency.md R110-R113). -/

namespace Sys2Proof.Machine

/-- `Inc(x)` (R110): FREQ[x] and FTOTAL each count one more or, at the maximum, stay and set FOVF. -/
def inc (x : Symbol) (s : State) : State :=
  s.setCounts (tableSet s.freq x (countUp (tableAt s.freq x))) (countUp s.ftotal)
    (s.fovf || saturated (tableAt s.freq x) || saturated s.ftotal)

/-- Inc of the `n` bytes of IBUF from index `k` on, in increasing order (R113). -/
def incRange : (n k : Nat) → State → State
  | 0, _, s => s
  | n + 1, k, s => incRange n (k + 1) (inc (s.ibufByte k) s)

/-- FCLR (R111). -/
def fclrRule (s : State) : Result Unit := .ok () (s.setCounts (Vector.replicate 256 0) 0 false)

/-- FACC (R112). -/
def faccRule (sym : Symbol) (s : State) : Result Unit := .ok () (inc sym s)

/-- FSCAN (R113). -/
def fscanRule (p : Params) (s : State) : Result Unit :=
  (checkInputRange p s).bind fun _ s => .ok () (incRange s.icnt.toNat s.iptr.toNat s)

/-- FCLR as an engine step (R111, R180). -/
def execFclr (s : State) : Host.Outcome State Fault Refusal := .next (runCommand fclrRule s)

/-- FACC as an engine step (R112, R180). -/
def execFacc (sym : Symbol) (s : State) : Host.Outcome State Fault Refusal := .next (runCommand (faccRule sym) s)

/-- FSCAN as an engine step (R113, R180). -/
def execFscan (s : State) : Host.Outcome State Fault Refusal := .next (runCommand (fscanRule Config.params) s)

end Sys2Proof.Machine
end

