-- ==== Sys2Proof/Machine/Dispatch.lean ====
section
/-! DEFINITION. One arm per command: the engine step of a decoded command (spec/60_exceptions.md R180). -/

namespace Sys2Proof.Machine

def exec (i : Instr) (s : State) : Host.Outcome State Fault Refusal :=
  match i with
  | .nop => Sys2Proof.Machine.execNop s
  | .clrerr => Sys2Proof.Machine.execClrerr s
  | .fclr => Sys2Proof.Machine.execFclr s
  | .facc sym => Sys2Proof.Machine.execFacc sym s
  | .fscan => Sys2Proof.Machine.execFscan s
  | .tbuild => Sys2Proof.Machine.execTbuild s
  | .bwreset => Sys2Proof.Machine.execBwreset s
  | .putbits nb val => Sys2Proof.Machine.execPutbits nb val s
  | .flush => Sys2Proof.Machine.execFlush s
  | .brreset => Sys2Proof.Machine.execBrreset s
  | .getbits nb => Sys2Proof.Machine.execGetbits nb s
  | .encsym sym => Sys2Proof.Machine.execEncsym sym s
  | .encode => Sys2Proof.Machine.execEncode s
  | .decsym => Sys2Proof.Machine.execDecsym s
  | .decode => Sys2Proof.Machine.execDecode s
  | .decall => Sys2Proof.Machine.execDecall s

end Sys2Proof.Machine
end

