-- ==== Sys2Proof/Machine/Engine.lean ====
section
/-! DEFINITION. The engine's step (spec/60_exceptions.md R180) and how the host, the reset input and the engine take
turns (spec/00_scope.md R7, spec/20_memory.md R72, spec/70_reset_and_hazards.md R200-R201; log entry 6). -/

namespace Sys2Proof.Machine

/-- The exact CLRERR word, the only command that runs while ERR = 1 (R101, R180). -/
def clrerrWord : Word := 0x01000000#32

/-- `raise BadCommand(w)` at decode (R86, R89), taken like every error (R181). -/
def badCommandRule (w : Word) (s : State) : Result Unit := .raised .badCommand w s

/-- `EngineStep()` for BUSY = 1 (R180): refused while ERR = 1 unless the word is CLRERR, else decoded and run. -/
def engineStep (s : State) : Host.Outcome State Fault Refusal :=
  if s.errCode ≠ .noError ∧ s.pending ≠ clrerrWord then .next s.complete
  else
    match decode s.pending with
    | .ok i => exec i s
    | .error _ => .next (runCommand (badCommandRule s.pending) s)

/-- The engine's turn: it has a step exactly when BUSY = 1 (R180), and is idle otherwise (R193). -/
def engineTurn (s : State) : Host.Outcome State Fault Refusal := if s.busy then engineStep s else .next s

/-- A host access from the script: its response is recorded, and its effect is the state's. -/
def hostTurn (a : Access) (s : State) : Host.Outcome State Fault Refusal :=
  .next { (hostAccess Config.params a s).2 with
    responses := (hostAccess Config.params a s).1 :: (hostAccess Config.params a s).2.responses }

/-- One step of the whole: the first entry of the script happens and is taken off; with no entry left the engine has
its turn, so that a pending command is executed after finitely many steps (R214). -/
def advance (s : State) : Host.Outcome State Fault Refusal :=
  match s.inputs with
  | [] => engineTurn s
  | .access a :: rest => hostTurn a { s with inputs := rest }
  | .reset :: rest => .next (resetFrom { s with inputs := rest })
  | .engineTurn :: rest => engineTurn { s with inputs := rest }

/-- The state with command word `w` accepted and the engine's turn next, and with no recorded error that would make
the engine refuse it (R65, R180; log entry 8). -/
def presentCommand (w : Word) (s : State) : State :=
  if w = clrerrWord then { s.accept w with inputs := .engineTurn :: s.inputs }
  else { (returnFromError s).accept w with inputs := .engineTurn :: s.inputs }

end Sys2Proof.Machine
end

