-- ==== Sys2Proof/Machine/Step.lean ====
section
/-! DEFINITION. One step of HCB and its environment (spec/00_scope.md R7, spec/60_exceptions.md R180), and how a command
is placed where the next step executes it. -/

namespace Sys2Proof.Machine

/-- One step: the next entry of the script, or the engine (Sys2Proof.Machine.advance). -/
def step (s : State) : Host.Outcome State Fault Refusal := advance s

/-- The state with a command, its `nbits` bits `w`, placed where the next step executes it: accepted as PENDING by a CMD
write, with the engine's turn next (R65, R74; log entry 8). -/
def State.withFetchWord (s : State) (nbits w : Nat) : State := presentCommand (commandWord nbits w) s

end Sys2Proof.Machine
end

