-- ==== Sys2Proof/Safety.lean ====
section
/-! DEFINITION. The terms the claims about HCB are stated in: bit strings MSB first, what the writer has appended, what
the reader sees, valid tables, the opcode map as the spec prints it, bus errors as the spec lists them, and the machine's
invariant. Each is written from the spec's own words and not from the meanings, so that a claim compares the two. -/

namespace Sys2Proof.Machine

/-! ### Bit strings (R8, R67) -/

/-- The low `n` bits of `v`, bit `n-1` first. -/
def msbBits (n v : Nat) : List Bool := (List.range n).map fun i => v.testBit (n - 1 - i)

/-- The code of `x` as the encoder emits it: its LEN bits, MSB first (R121). -/
def codeBits (s : State) (x : Symbol) : List Bool := msbBits (lenOf s.len x) (codeOf s.code x)

/-- The codes of a list of symbols, one after another (R152). -/
def codesOf (s : State) (xs : List Symbol) : List Bool := (xs.map (codeBits s)).flatten

/-- The bits of a list of bytes, each MSB first (R162). -/
def byteBits (xs : List Byte) : List Bool := (xs.map fun x => msbBits 8 x.toNat).flatten

/-- The `n` bits of the input stream from bit `q` on (R38, R67). -/
def readBits (s : State) (q n : Nat) : List Bool := (List.range n).map fun i => s.streamBit (q + i)

/-- The bytes of the input range, in order (R35, R113, R151). -/
def inputBytes (s : State) : List Symbol := (List.range s.icnt.toNat).map fun k => s.ibufByte (s.iptr.toNat + k)

/-! ### The bit writer (R36, R37, R130) -/

/-- The writer's pending bits, oldest first (R37). -/
def pendingBits (s : State) : List Bool := msbBits s.bwcnt.toNat s.bwacc.toNat

/-- The range of OPTR (R36) and the invariant of BWSTATE (R37). -/
abbrev WriterInv (p : Params) (s : State) : Prop :=
  s.optr.toNat ≤ p.obufBytes ∧ s.bwcnt.toNat ≤ 7 ∧ s.bwacc.toNat < 2 ^ s.bwcnt.toNat

/-- `n` more bits complete no byte beyond the end of OBUF (R130). -/
abbrev RoomFor (p : Params) (s : State) (n : Nat) : Prop :=
  s.optr.toNat + (s.bwcnt.toNat + n) / 8 ≤ p.obufBytes

/-- How many bytes `n` more bits complete (R130). -/
abbrev bytesCompleted (s : State) (n : Nat) : Nat := (s.bwcnt.toNat + n) / 8

/-- In `t` the writer has the bits `bits` appended to what it held in `s`: the bits pending in `s` and then `bits` fill
whole bytes of OBUF from OPTR on, MSB first, the rest is pending in `t`, and every other byte of OBUF reads as before
(R130, R131). -/
def Appended (s t : State) (bits : List Bool) : Prop :=
  t.optr.toNat = s.optr.toNat + bytesCompleted s bits.length
  ∧ t.bwcnt.toNat = (s.bwcnt.toNat + bits.length) % 8
  ∧ t.bwacc.toNat < 2 ^ t.bwcnt.toNat
  ∧ pendingBits t = (pendingBits s ++ bits).drop (8 * bytesCompleted s bits.length)
  ∧ (∀ j, j < bytesCompleted s bits.length →
      msbBits 8 (t.obufByte (s.optr.toNat + j)).toNat = ((pendingBits s ++ bits).drop (8 * j)).take 8)
  ∧ ∀ k, (k < s.optr.toNat ∨ s.optr.toNat + bytesCompleted s bits.length ≤ k) → t.obufByte k = s.obufByte k

/-- A successful command that only appends to the writer: nothing but the writer's registers, OBUF, BUSY and DONE
differs. -/
def OnlyWriterChanged (s t : State) : Prop :=
  t = { s with
    obuf := t.obuf, optr := t.optr, bwacc := t.bwacc, bwcnt := t.bwcnt
    busy := false, done := true }

/-- A failed command with error `e` and information `info` that had written `n` bytes of OBUF (R180, R181): nothing but
ERRCODE, ERRINFO, BUSY, DONE and those bytes differs (and the model's count of draws). -/
def Failed (e : ErrCode) (info : Word) (n : Nat) (s t : State) : Prop :=
  t = { s with
    obuf := t.obuf, draws := t.draws
    errCode := e, errInfo := info
    busy := false, done := true }
  ∧ ∀ k, (k < s.optr.toNat ∨ s.optr.toNat + n ≤ k) → t.obufByte k = s.obufByte k

/-- A failed command that had written nothing. -/
def FailedClean (e : ErrCode) (info : Word) (s : State) : State :=
  { s with errCode := e, errInfo := info, busy := false, done := true }

/-! ### The code table (R13, R120, R123) -/

/-- `x` is a present symbol (R13). -/
abbrev present (s : State) (x : Symbol) : Prop := 0 < lenOf s.len x

/-- The Kraft sum as R120 writes it, over all 256 symbols, in units of `2^-MAX_LEN`. -/
def kraftUnits (p : Params) (t : Vector Byte 256) : Nat :=
  (symbols.map fun x => if lenOf t x = 0 then 0 else 2 ^ (p.maxLen - lenOf t x)).sum

/-- A valid LENTAB content (R120). -/
abbrev ValidTable (p : Params) (t : Vector Byte 256) : Prop :=
  (∀ x : Symbol, lenOf t x ≤ p.maxLen) ∧ kraftUnits p t ≤ 2 ^ p.maxLen

/-- `x` comes strictly before `y` in the order of the key `(LEN, symbol)` (R121). -/
abbrev keyBefore (t : Vector Byte 256) (x y : Symbol) : Prop :=
  lenOf t x < lenOf t y ∨ (lenOf t x = lenOf t y ∧ x.toNat < y.toNat)

/-- `order` is the list of the present symbols sorted by `(LEN, symbol)` (R121). -/
def IsCanonicalOrder (t : Vector Byte 256) (order : List Symbol) : Prop :=
  order.Pairwise (keyBefore t) ∧ ∀ x, x ∈ order ↔ 0 < lenOf t x

/-- While TVALID = 1 the table is the canonical one of a valid LENTAB (R29, R47). -/
abbrev TableInv (p : Params) (s : State) : Prop :=
  s.tvalid = true → ValidTable p s.len ∧ s.code = canonicalCodes s.len

/-! ### The reader (R132, R134) -/

/-- The reader's bound lies in IBUF, so that CheckReader passes (R134). -/
abbrev ReaderOk (p : Params) (s : State) : Prop := s.brlen.toNat ≤ p.ibufBytes

/-- The next bits of the stream, all before the limit, are `bits` (R132, R133). -/
abbrev StreamStartsWith (s : State) (bits : List Bool) : Prop :=
  s.brpos.toNat + bits.length ≤ s.limit ∧ readBits s s.brpos.toNat bits.length = bits

/-- The `n` bits from bit `q` on are a proper prefix of some present code: an internal node of the tree (R164). -/
def AtInternalNode (s : State) (q n : Nat) : Prop :=
  ∃ x, present s x ∧ n < lenOf s.len x ∧ readBits s q n <+: codeBits s x

/-- The `n` bits from bit `q` on are a prefix of no present code: a missing node of the tree (R160, R164). -/
def AtMissingNode (s : State) (q n : Nat) : Prop := ∀ x, present s x → ¬ readBits s q n <+: codeBits s x

/-- From bit `q` on the stream ends before a symbol is complete: at the root, or at an internal node (R160). -/
def StreamEndsMidCode (s : State) (q : Nat) : Prop := s.limit ≤ q ∨ AtInternalNode s q (s.limit - q)

/-- Bit `b` is the first after which the bits read from bit `q` on match no code (R160, R183). -/
def StreamLeavesTree (s : State) (q b : Nat) : Prop :=
  q ≤ b ∧ b < s.limit ∧ (b = q ∨ AtInternalNode s q (b - q)) ∧ AtMissingNode s q (b + 1 - q)

/-! ### The opcode map (R88) -/

/-- A row of the opcode map: a word `w` selects it when `w & mask = pattern`; the rows of format B and G also need NB in
1..16. -/
structure OpcodeRow where
  mnemonic : String
  pattern  : Word
  mask     : Word
  counted  : Bool
  deriving DecidableEq, Repr

/-- The opcode map as rule R88 prints it. -/
def opcodeMap : List OpcodeRow :=
  [ ⟨"NOP", 0x00000000#32, 0xFFFFFFFF#32, false⟩,
    ⟨"CLRERR", 0x01000000#32, 0xFFFFFFFF#32, false⟩,
    ⟨"FCLR", 0x10000000#32, 0xFFFFFFFF#32, false⟩,
    ⟨"FACC", 0x11000000#32, 0xFFFFFF00#32, false⟩,
    ⟨"FSCAN", 0x12000000#32, 0xFFFFFFFF#32, false⟩,
    ⟨"TBUILD", 0x20000000#32, 0xFFFFFFFF#32, false⟩,
    ⟨"BWRESET", 0x30000000#32, 0xFFFFFFFF#32, false⟩,
    ⟨"PUTBITS", 0x31000000#32, 0xFFE00000#32, true⟩,
    ⟨"FLUSH", 0x32000000#32, 0xFFFFFFFF#32, false⟩,
    ⟨"BRRESET", 0x38000000#32, 0xFFFFFFFF#32, false⟩,
    ⟨"GETBITS", 0x39000000#32, 0xFFE0FFFF#32, true⟩,
    ⟨"ENCSYM", 0x40000000#32, 0xFFFFFF00#32, false⟩,
    ⟨"ENCODE", 0x41000000#32, 0xFFFFFFFF#32, false⟩,
    ⟨"DECSYM", 0x50000000#32, 0xFFFFFFFF#32, false⟩,
    ⟨"DECODE", 0x51000000#32, 0xFFFFFFFF#32, false⟩,
    ⟨"DECALL", 0x52000000#32, 0xFFFFFFFF#32, false⟩ ]

/-- Word `w` selects row `r` (R88); NB is bits [20:16]. -/
abbrev OpcodeRow.selects (r : OpcodeRow) (w : Word) : Prop :=
  w &&& r.mask = r.pattern ∧ (r.counted = true → 1 ≤ w.toNat / 2 ^ 16 % 32 ∧ w.toNat / 2 ^ 16 % 32 ≤ 16)

/-- The mnemonic a command is listed under (R88). -/
def mnemonicOf : Instr → String
  | .nop => "NOP"
  | .clrerr => "CLRERR"
  | .fclr => "FCLR"
  | .facc _ => "FACC"
  | .fscan => "FSCAN"
  | .tbuild => "TBUILD"
  | .bwreset => "BWRESET"
  | .putbits _ _ => "PUTBITS"
  | .flush => "FLUSH"
  | .brreset => "BRRESET"
  | .getbits _ => "GETBITS"
  | .encsym _ => "ENCSYM"
  | .encode => "ENCODE"
  | .decsym => "DECSYM"
  | .decode => "DECODE"
  | .decall => "DECALL"

/-- The errors a command may raise once decoded (R182, column "raised by"). -/
def mayRaise : Instr → List ErrCode
  | .nop | .clrerr | .fclr | .facc _ | .bwreset | .brreset => []
  | .fscan => [.rangeError]
  | .tbuild => [.invalidHeader]
  | .putbits _ _ | .flush => [.outputOverflow]
  | .getbits _ => [.rangeError, .truncatedPayload]
  | .encsym _ => [.tableInvalid, .symbolNotInTable, .outputOverflow]
  | .encode => [.tableInvalid, .rangeError, .symbolNotInTable, .outputOverflow]
  | .decsym => [.tableInvalid, .rangeError, .truncatedPayload, .invalidCode]
  | .decode | .decall => [.tableInvalid, .rangeError, .truncatedPayload, .invalidCode, .outputOverflow]

/-! ### Bus accesses (R61-R64) -/

/-- The unmapped offsets of the window (R62). -/
abbrev Unmapped (p : Params) (offset : Nat) : Prop :=
  (0x070 ≤ offset ∧ offset ≤ 0x3FF) ∨ (0x900 ≤ offset ∧ offset ≤ 0xFFFF) ∨ (0x30000 ≤ offset ∧ offset ≤ 0x3FFFF)
  ∨ (0x10000 ≤ offset ∧ offset ≤ 0x1FFFF ∧ p.ibufBytes / 4 ≤ (offset - 0x10000) / 4)
  ∨ (0x20000 ≤ offset ∧ offset ≤ 0x2FFFF ∧ p.obufBytes / 4 ≤ (offset - 0x20000) / 4)

/-- The accesses accepted while BUSY = 1: reads of ID, IBUFSZ, OBUFSZ, MAXLEN, CTRL and STATUS, and writes of CTRL and
STATUS (R64), by their offsets (R21). -/
abbrev BusyAccess (a : Access) : Prop :=
  (a.kind = .read ∧ a.offset.toNat ∈ [0x000, 0x004, 0x008, 0x00C, 0x010, 0x014])
  ∨ (a.kind = .write ∧ a.offset.toNat ∈ [0x010, 0x014])

/-- The conditions under which a host access bus-errors (R62). -/
abbrev BusErrors (p : Params) (s : State) (a : Access) : Prop :=
  a.size ≠ 4 ∨ a.offset.toNat % 4 ≠ 0 ∨ Unmapped p a.offset.toNat ∨ (s.busy = true ∧ ¬ BusyAccess a)

/-- A 4-byte read at byte offset `offset` (R61). -/
def readAt (offset : Nat) : Access := ⟨.read, BitVec.ofNat 18 offset, 4, 0⟩

/-- A 4-byte write of `d` at byte offset `offset` (R61). -/
def writeAt (offset : Nat) (d : Word) : Access := ⟨.write, BitVec.ofNat 18 offset, 4, d⟩

/-! ### Turns and the invariant -/

/-- The engine has the next turn, a command is pending, and `rest` is the script after the turn (R180, R214). -/
abbrev EngineTurn (s : State) (rest : List Input) : Prop :=
  s.busy = true ∧ ((s.inputs = [] ∧ rest = []) ∨ s.inputs = .engineTurn :: rest)

/-- What holds of HCB in every reachable state: OPTR's range and BWSTATE's invariant (R36, R37), BRPOS's bound (R38),
ERRINFO = 0 without an error (R33), DONE = 0 while BUSY (R65, R180), the table's invariant (R29, R47), and both byte
arrays in canonical form with every written index inside its array (R10). -/
abbrev State.Inv (p : Params) (s : State) : Prop :=
  WriterInv p s
  ∧ s.brpos.toNat ≤ 8 * p.ibufBytes
  ∧ (s.errCode = .noError → s.errInfo = 0)
  ∧ (s.busy = true → s.done = false)
  ∧ TableInv p s
  ∧ Memory.wf s.ibuf ∧ (∀ c ∈ s.ibuf, c.1 < p.ibufBytes)
  ∧ Memory.wf s.obuf ∧ (∀ c ∈ s.obuf, c.1 < p.obufBytes)

end Sys2Proof.Machine
end

