-- ==== Sys2Proof/Certificates/Slice0/Obligations.lean ====
section
/-! DEFINITION. The statements about HCB, each from a numbered rule of spec/. `Config.params` has no body, so every
statement holds for every implementation of rule R6; the free bytes have none either. -/

open Sys2Proof Sys2Proof.Machine

/-! ### Encoding -/

/-- R82-R88: decoding the word of a command that has an encoding gives the command back, with every operand. -/
def Obligations.DecodeOfEncode : Prop :=
  ∀ i : Instr, i.WellFormed → Sys2Proof.decode (Sys2Proof.encode i) = .ok i

/-- R80-R89: a word that decodes is the word of the command it decodes to, and that command has an encoding, so that no
two words mean the same command and no bit of a word is ignored. -/
def Obligations.EncodeOfDecode : Prop :=
  ∀ (w : Word) (i : Instr), Sys2Proof.decode w = .ok i → i.WellFormed ∧ Sys2Proof.encode i = w

/-- R88: a word decodes to a command listed under a mnemonic exactly if it selects that row of the opcode map. -/
def Obligations.DecodingFollowsOpcodeMap : Prop :=
  ∀ (w : Word) (r : OpcodeRow), r ∈ opcodeMap →
    (r.selects w ↔ ∃ i, Sys2Proof.decode w = .ok i ∧ mnemonicOf i = r.mnemonic)

/-- Sanity: words written out bit by bit from R82-R88 and R91, one or more of each family. -/
def Obligations.SampleWordsDecode : Prop :=
  Sys2Proof.decode 0b00000001_000000000000000000000000#32 = .ok .clrerr
  ∧ Sys2Proof.decode 0b00010001_0000000000000000_01100001#32 = .ok (.facc 0x61#8)
  ∧ Sys2Proof.decode 0b00100000_000000000000000000000000#32 = .ok .tbuild
  ∧ Sys2Proof.decode 0b00110001_000_00011_0000000000000101#32 = .ok (.putbits 3#5 5#16)
  ∧ Sys2Proof.decode 0b00111001_000_10000_0000000000000000#32 = .ok (.getbits 16#5)
  ∧ Sys2Proof.decode 0b01000000_0000000000000000_01110010#32 = .ok (.encsym 0x72#8)
  ∧ Sys2Proof.decode 0b01010010_000000000000000000000000#32 = .ok .decall
  ∧ (∃ e, Sys2Proof.decode 0b00110001_000_10001_0000000000000000#32 = .error e)
  ∧ (∃ e, Sys2Proof.decode 0b00111001_000_00011_0000000000000001#32 = .error e)

/-! ### The step -/

/-- R180: on the engine's turn a pending command that is not refused and decodes to `i` runs as `exec i`; around it the
step only takes the turn off the model's script (log entry 6). -/
def Obligations.StepRunsDecodedCommand : Prop :=
  ∀ (s : State) (rest : List Input) (i : Instr), EngineTurn s rest →
    (s.errCode = .noError ∨ s.pending = 0x01000000#32) → Sys2Proof.decode s.pending = .ok i →
    step s = exec i { s with inputs := rest }

/-- How the model takes turns (log entry 6): a step takes the first entry off the script and is that host access, whose
response it records, that reset, or the engine's step; R7, R180, R200. -/
def Obligations.StepTakesTheFirstScriptEntry : Prop :=
  ∀ (s : State) (rest : List Input),
    (∀ a, s.inputs = .access a :: rest →
      step s = .next { (hostAccess Config.params a s).2 with
        inputs := rest, responses := (hostAccess Config.params a s).1 :: s.responses })
    ∧ (s.inputs = .reset :: rest → step s = .next (resetFrom { s with inputs := rest }))
    ∧ (EngineTurn s rest → step s = engineStep { s with inputs := rest })

/-- R89: every word that selects no row of the opcode map fails with BadCommand(w) when the engine executes it, and is
refused while ERR = 1. -/
def Obligations.IllegalWordFailsWithBadCommand : Prop :=
  ∀ s : State, s.busy = true → (∀ r ∈ opcodeMap, ¬ r.selects s.pending) →
    (s.errCode = .noError → engineStep s = .next (FailedClean .badCommand s.pending s))
    ∧ (s.errCode ≠ .noError → engineStep s = .next { s with busy := false, done := true })

/-- R180, R186: on the engine's turn, while ERR = 1, every command word but the exact CLRERR word changes nothing of HCB
but BUSY and DONE, whatever it is; in particular the first error is kept. Besides, the step takes the turn off the model's
script (log entry 6). -/
def Obligations.RefusedCommandChangesOnlyBusyAndDone : Prop :=
  ∀ (s : State) (rest : List Input), EngineTurn s rest → s.errCode ≠ .noError → s.pending ≠ 0x01000000#32 →
    step s = .next { s with inputs := rest, busy := false, done := true }

/-- R27, R180, R187: every engine step ends with BUSY = 0 and DONE = 1, whether the command succeeded, failed or was
refused, so `irq` is high after it exactly if CTRL.IE is set; and it changes none of the host's side, which is CTRL and
the model's script, responses and reset count (log entries 1 and 6). -/
def Obligations.EveryEngineStepCompletes : Prop :=
  ∀ (s : State) (rest : List Input), EngineTurn s rest →
    ∃ t, step s = .next t ∧ t.busy = false ∧ t.done = true ∧ t.irq = s.ie ∧ t.ie = s.ie
      ∧ t.inputs = rest ∧ t.responses = s.responses ∧ t.epoch = s.epoch

/-- R27, R52, R187: DONE, and with it `irq`, falls when the next command is accepted and when the host writes 1 to STATUS
bit 1; R193: with no input in the model's script (log entry 6) and no pending command nothing changes. -/
def Obligations.InterruptFallsAndIdleKeepsState : Prop :=
  (∀ (s : State) (rest : List Input) (w : Word), s.busy = false → s.inputs = .access (writeAt 0x018 w) :: rest →
    ∃ t, step s = .next t ∧ t.done = false ∧ t.irq = false)
  ∧ (∀ (s : State) (rest : List Input) (w : Word), w.getLsbD 1 = true →
    s.inputs = .access (writeAt 0x014 w) :: rest →
      ∃ t, step s = .next t ∧ t.done = false ∧ t.irq = false)
  ∧ (∀ s : State, s.busy = false → s.inputs = [] → step s = .next s)

/-- No run of HCB ever stops: every step answers a next state, in every state (R62, R180, R184). -/
def Obligations.EveryStepAnswersNext : Prop := ∀ s : State, ∃ t, step s = .next t

/-- R53, R200, R201: in the reset state, and after a reset in any state, also with a command pending, every register, FREQ
and LENTAB read as their reset values, the engine is idle and `irq` is low. -/
def Obligations.ResetValues : Prop :=
  ∀ t : State, (t = State.reset ∨ ∃ s, t = resetFrom s) →
    t.busy = false ∧ t.irq = false
      ∧ (∀ e ∈ ([(0x000, 0x48554646#32), (0x004, BitVec.ofNat 32 Config.params.ibufBytes),
          (0x008, BitVec.ofNat 32 Config.params.obufBytes), (0x00C, BitVec.ofNat 32 Config.params.maxLen),
          (0x010, 0#32), (0x014, 0x00000020#32), (0x018, 0#32), (0x01C, 0#32), (0x020, 0#32), (0x024, 0#32),
          (0x028, 0#32), (0x02C, 0#32), (0x030, 0#32), (0x034, 0#32), (0x038, 0#32), (0x03C, 0#32), (0x040, 0#32),
          (0x044, 0#32), (0x048, 0#32), (0x04C, 0#32), (0x050, 0#32), (0x054, 0#32), (0x058, 0#32), (0x05C, 0#32),
          (0x060, 0#32), (0x064, 0#32), (0x068, 0#32), (0x06C, 0#32)] : List (Nat × Word)),
        (hostAccess Config.params (readAt e.1) t).1 = .readData e.2)
      ∧ (∀ x, x < 256 → (hostAccess Config.params (readAt (0x400 + 4 * x)) t).1 = .readData 0)
      ∧ (∀ w, w < 64 → (hostAccess Config.params (readAt (0x800 + 4 * w)) t).1 = .readData 0)

/-! ### Host accesses -/

/-- R65: a write of `w` to CMD while BUSY = 0 is accepted whatever `w` and ERR are: PENDING, BUSY and DONE change, and
nothing else does. -/
def Obligations.CmdWriteIsAccepted : Prop :=
  ∀ (s : State) (w : Word), s.busy = false →
    hostAccess Config.params (writeAt 0x018 w) s
      = (.writeDone, { s with pending := w, busy := true, done := false })

/-- R62, R64: a host access bus-errors under exactly the listed conditions, and then it has no effect. -/
def Obligations.BusErrorsExactlyAsListed : Prop :=
  ∀ (s : State) (a : Access),
    (BusErrors Config.params s a → hostAccess Config.params a s = (.busError, s))
    ∧ (¬ BusErrors Config.params s a → (hostAccess Config.params a s).1 ≠ .busError)

/-- R63: no read has a side effect, whatever it reads: the step of a read changes only the model's script and its record
of responses (log entry 6). -/
def Obligations.ReadsHaveNoSideEffect : Prop :=
  ∀ (s : State) (rest : List Input) (a : Access), a.kind = .read → s.inputs = .access a :: rest →
    ∃ r, step s = .next { s with inputs := rest, responses := r :: s.responses }

/-- R25, R28, R31: the bits STATUS reads as, with ERR and BREOF computed and reserved bits 0, also while BUSY = 1. -/
def Obligations.StatusBits : Prop :=
  ∀ s : State, ∃ w : Word, hostAccess Config.params (readAt 0x014) s = (.readData w, s)
    ∧ w.getLsbD 0 = s.busy ∧ w.getLsbD 1 = s.done ∧ (w.getLsbD 2 = true ↔ s.errCode ≠ .noError)
    ∧ w.getLsbD 3 = s.tvalid ∧ w.getLsbD 4 = s.fovf
    ∧ (w.getLsbD 5 = true ↔ (8 * s.brlen.toNat : Int) - s.brpad.toNat ≤ s.brpos.toNat)
    ∧ w.getLsbD 6 = false ∧ w.getLsbD 7 = false ∧ w.toNat / 2 ^ 12 = 0
    ∧ w.toNat / 2 ^ 8 % 16 = (match s.errCode with
        | .noError => 0 | .badCommand => 1 | .invalidHeader => 2 | .truncatedPayload => 3 | .symbolNotInTable => 4
        | .invalidCode => 5 | .tableInvalid => 6 | .rangeError => 7 | .outputOverflow => 8)

/-- R25: a write to STATUS clears DONE if bit 1 of the value is 1 and changes nothing else, also while BUSY = 1. -/
def Obligations.StatusWriteClearsDone : Prop :=
  ∀ (s : State) (d : Word), hostAccess Config.params (writeAt 0x014 d) s
    = (.writeDone, if d.getLsbD 1 then { s with done := false } else s)

/-- R46: a read of LENTAB word `w` returns its four entries; an accepted write replaces them by the written bytes, clears
TVALID and changes nothing else. -/
def Obligations.LentabWriteReplacesFourEntries : Prop :=
  ∀ (s : State) (w : Nat) (d : Word), w < 64 → s.busy = false →
    ∃ t, hostAccess Config.params (writeAt (0x800 + 4 * w) d) s = (.writeDone, t)
      ∧ t = { s with len := t.len, tvalid := false }
      ∧ (∀ j, j < 4 → lenOf t.len (BitVec.ofNat 8 (4 * w + j)) = d.toNat / 2 ^ (8 * j) % 256)
      ∧ (∀ x : Symbol, x.toNat / 4 ≠ w → lenOf t.len x = lenOf s.len x)
      ∧ ∃ v, hostAccess Config.params (readAt (0x800 + 4 * w)) s = (.readData v, s)
        ∧ ∀ j, j < 4 → v.toNat / 2 ^ (8 * j) % 256 = lenOf s.len (BitVec.ofNat 8 (4 * w + j))

/-- R66: word `w` of the IBUF, OBUF and LENTAB windows: a write stores byte lane `j` in byte (entry) `4w + j` and leaves
every other one alone, and a read returns the four bytes as they stand; a write to IBUF or OBUF changes nothing else. -/
def Obligations.WindowByteLanes : Prop :=
  ∀ (s : State) (w : Nat) (d : Word), s.busy = false →
    (4 * w < Config.params.ibufBytes →
      (∃ t, hostAccess Config.params (writeAt (0x10000 + 4 * w) d) s = (.writeDone, t)
        ∧ t = { s with ibuf := t.ibuf }
        ∧ (∀ j, j < 4 → (t.ibufByte (4 * w + j)).toNat = d.toNat / 2 ^ (8 * j) % 256)
        ∧ (∀ k, k / 4 ≠ w → t.ibufByte k = s.ibufByte k))
      ∧ ∃ v, hostAccess Config.params (readAt (0x10000 + 4 * w)) s = (.readData v, s)
        ∧ ∀ j, j < 4 → v.toNat / 2 ^ (8 * j) % 256 = (s.ibufByte (4 * w + j)).toNat)
    ∧ (4 * w < Config.params.obufBytes →
      (∃ t, hostAccess Config.params (writeAt (0x20000 + 4 * w) d) s = (.writeDone, t)
        ∧ t = { s with obuf := t.obuf }
        ∧ (∀ j, j < 4 → (t.obufByte (4 * w + j)).toNat = d.toNat / 2 ^ (8 * j) % 256)
        ∧ (∀ k, k / 4 ≠ w → t.obufByte k = s.obufByte k))
      ∧ ∃ v, hostAccess Config.params (readAt (0x20000 + 4 * w)) s = (.readData v, s)
        ∧ ∀ j, j < 4 → v.toNat / 2 ^ (8 * j) % 256 = (s.obufByte (4 * w + j)).toNat)
    ∧ (w < 64 →
      (∃ t, hostAccess Config.params (writeAt (0x800 + 4 * w) d) s = (.writeDone, t)
        ∧ (∀ j, j < 4 → lenOf t.len (BitVec.ofNat 8 (4 * w + j)) = d.toNat / 2 ^ (8 * j) % 256)
        ∧ (∀ x : Symbol, x.toNat / 4 ≠ w → lenOf t.len x = lenOf s.len x))
      ∧ ∃ v, hostAccess Config.params (readAt (0x800 + 4 * w)) s = (.readData v, s)
        ∧ ∀ j, j < 4 → v.toNat / 2 ^ (8 * j) % 256 = lenOf s.len (BitVec.ofNat 8 (4 * w + j)))

/-- R44: TCODEk reads bits [32k+31 : 32k] of the selected symbol's code while TVALID = 1 and 0 while TVALID = 0; a symbol
without a code reads 0 in every state that meets the table's invariant. -/
def Obligations.TcodeShowsSelectedCode : Prop :=
  ∀ (s : State) (k : Nat), k < 8 → s.busy = false →
    ∃ v, hostAccess Config.params (readAt (0x050 + 4 * k)) s = (.readData v, s)
      ∧ (s.tvalid = true → v.toNat = codeOf s.code s.tsel / 2 ^ (32 * k) % 2 ^ 32)
      ∧ (s.tvalid = false → v = 0)
      ∧ (TableInv Config.params s → lenOf s.len s.tsel = 0 → v = 0)

/-- R24, R35, R39, R40, R43, R63: a write to a read-write register stores the bits that are not reserved and nothing
else; BRPAD keeps bits [2:0], TSEL bits [7:0], CTRL bit 0. -/
def Obligations.RegisterWritesStoreTheirField : Prop :=
  ∀ (s : State) (d : Word),
    hostAccess Config.params (writeAt 0x010 d) s = (.writeDone, { s with ie := d.getLsbD 0 })
    ∧ (s.busy = false →
      hostAccess Config.params (writeAt 0x024 d) s = (.writeDone, { s with iptr := d })
      ∧ hostAccess Config.params (writeAt 0x028 d) s = (.writeDone, { s with icnt := d })
      ∧ hostAccess Config.params (writeAt 0x038 d) s = (.writeDone, { s with brlen := d })
      ∧ hostAccess Config.params (writeAt 0x03C d) s = (.writeDone, { s with brpad := BitVec.ofNat 3 d.toNat })
      ∧ hostAccess Config.params (writeAt 0x040 d) s = (.writeDone, { s with dcnt := d })
      ∧ hostAccess Config.params (writeAt 0x04C d) s = (.writeDone, { s with tsel := BitVec.ofNat 8 d.toNat }))

/-- R21-R45, R63: what the registers read as while BUSY = 0, and that a write to a read-only register or to the FREQ
window is accepted and ignored. -/
def Obligations.RegistersReadAndReadOnlyIgnoresWrites : Prop :=
  ∀ (s : State) (d : Word), s.busy = false →
    (∀ e ∈ ([(0x000, 0x48554646#32), (0x004, BitVec.ofNat 32 Config.params.ibufBytes),
        (0x008, BitVec.ofNat 32 Config.params.obufBytes), (0x00C, BitVec.ofNat 32 Config.params.maxLen),
        (0x010, if s.ie then 1#32 else 0#32), (0x018, 0#32), (0x01C, s.errInfo), (0x020, s.rdata), (0x024, s.iptr),
        (0x028, s.icnt), (0x02C, s.optr),
        (0x030, BitVec.ofNat 32 (s.pad.toNat * 2 ^ 16 + s.bwcnt.toNat * 2 ^ 8 + s.bwacc.toNat)),
        (0x034, s.brpos), (0x038, s.brlen), (0x03C, BitVec.ofNat 32 s.brpad.toNat), (0x040, s.dcnt),
        (0x044, s.ftotal),
        (0x048, BitVec.ofNat 32 (Finset.univ.filter fun x : Fin 256 => s.freq[x] ≠ 0).card),
        (0x04C, BitVec.ofNat 32 s.tsel.toNat)] : List (Nat × Word)),
      hostAccess Config.params (readAt e.1) s = (.readData e.2, s))
    ∧ (∀ x : Symbol, hostAccess Config.params (readAt (0x400 + 4 * x.toNat)) s = (.readData (tableAt s.freq x), s))
    ∧ (∀ o ∈ [0x000, 0x004, 0x008, 0x00C, 0x01C, 0x020, 0x02C, 0x030, 0x034, 0x044, 0x048, 0x050, 0x054, 0x058, 0x05C,
        0x060, 0x064, 0x068, 0x06C], hostAccess Config.params (writeAt o d) s = (.writeDone, s))
    ∧ (∀ x : Symbol, hostAccess Config.params (writeAt (0x400 + 4 * x.toNat) d) s = (.writeDone, s))

/-! ### Control commands and the commands without operands that cannot fail -/

/-- R100, R101, R111, R135, R138: NOP, CLRERR, FCLR, BWRESET and BRRESET complete in every state, with exactly the
registers their rules name written. -/
def Obligations.CommandsThatCannotFailComplete : Prop :=
  ∀ s : State,
    exec .nop s = .next { s with busy := false, done := true }
    ∧ exec .clrerr s = .next { s with errCode := .noError, errInfo := 0, busy := false, done := true }
    ∧ exec .fclr s = .next { s with
        freq := Vector.replicate 256 0, ftotal := 0, fovf := false, busy := false, done := true }
    ∧ exec .bwreset s = .next { s with
        optr := 0, bwacc := 0, bwcnt := 0, pad := 0, busy := false, done := true }
    ∧ exec .brreset s = .next { s with brpos := 0, busy := false, done := true }

/-- R101: the exact word 0x01000000, and no other, is CLRERR; the engine runs it whether or not an error is recorded, and
clears ERRCODE and ERRINFO and nothing else; without an error it changes nothing but BUSY and DONE in any state that meets
the invariant; it is the only word that runs while ERR = 1, since every other is refused; any other word with its opcode is
BadCommand while ERR = 0. -/
def Obligations.ClrerrLeavesTheErrorState : Prop :=
  (∀ w : Word, Sys2Proof.decode w = .ok .clrerr ↔ w = 0x01000000#32)
  ∧ ∀ s : State, s.busy = true →
    (s.pending = 0x01000000#32 →
      engineStep s = .next { s with errCode := .noError, errInfo := 0, busy := false, done := true })
    ∧ (s.pending = 0x01000000#32 → s.Inv Config.params → s.errCode = .noError →
      engineStep s = .next { s with busy := false, done := true })
    ∧ (s.pending ≠ 0x01000000#32 → s.errCode ≠ .noError →
      engineStep s = .next { s with busy := false, done := true })
    ∧ (s.pending.toNat / 2 ^ 24 = 1 → s.pending ≠ 0x01000000#32 → s.errCode = .noError →
      engineStep s = .next (FailedClean .badCommand s.pending s))

/-! ### Frequency accumulator -/

/-- R110, R112: FACC counts one symbol in every state: FREQ[SYM] and FTOTAL each go up by one or stay at 0xFFFFFFFF and
set FOVF; nothing else changes. -/
def Obligations.FaccCountsOneSymbol : Prop :=
  ∀ (sym : Symbol) (s : State),
    (∀ w : Word, Sys2Proof.decode w = .ok (.facc sym) ↔ w.toNat = 0x11000000 + sym.toNat)
    ∧ ∃ t, exec (.facc sym) s = .next t
      ∧ t = { s with freq := t.freq, ftotal := t.ftotal, fovf := t.fovf, busy := false, done := true }
      ∧ (tableAt t.freq sym).toNat = min ((tableAt s.freq sym).toNat + 1) 0xFFFFFFFF
      ∧ (∀ x, x ≠ sym → tableAt t.freq x = tableAt s.freq x)
      ∧ t.ftotal.toNat = min (s.ftotal.toNat + 1) 0xFFFFFFFF
      ∧ (t.fovf = true ↔
        s.fovf = true ∨ tableAt s.freq sym = 0xFFFFFFFF#32 ∨ s.ftotal = 0xFFFFFFFF#32)

/-- R113: FSCAN adds to each counter how often its symbol occurs in the input range, saturating, and to FTOTAL the
number of bytes; FOVF is set exactly if a count was lost; a range that does not fit in IBUF is RangeError(0) with
nothing counted. -/
def Obligations.FscanCountsTheInputRange : Prop :=
  (∀ w : Word, Sys2Proof.decode w = .ok .fscan ↔ w = 0x12000000#32)
  ∧ ∀ s : State,
    (s.iptr.toNat + s.icnt.toNat ≤ Config.params.ibufBytes →
      ∃ t, exec .fscan s = .next t
        ∧ t = { s with freq := t.freq, ftotal := t.ftotal, fovf := t.fovf, busy := false, done := true }
        ∧ (∀ x : Symbol, (tableAt t.freq x).toNat
            = min ((tableAt s.freq x).toNat + (inputBytes s).count x) 0xFFFFFFFF)
        ∧ t.ftotal.toNat = min (s.ftotal.toNat + s.icnt.toNat) 0xFFFFFFFF
        ∧ (t.fovf = true ↔ s.fovf = true
            ∨ (∃ x : Symbol, 0xFFFFFFFF < (tableAt s.freq x).toNat + (inputBytes s).count x)
            ∨ 0xFFFFFFFF < s.ftotal.toNat + s.icnt.toNat))
    ∧ (Config.params.ibufBytes < s.iptr.toNat + s.icnt.toNat →
      exec .fscan s = .next (FailedClean .rangeError 0 s))

/-! ### Code table -/

/-- R120-R122: on a valid LENTAB TBUILD succeeds, sets TVALID, gives absent symbols code 0 and the present ones the
canonical codes: in the order of (LEN, symbol) the first is 0 and each next one is the code before plus one, shifted
left by the growth in length, in unbounded arithmetic. Nothing else changes. -/
def Obligations.TbuildAssignsCanonicalCodes : Prop :=
  (∀ w : Word, Sys2Proof.decode w = .ok .tbuild ↔ w = 0x20000000#32)
  ∧ ∀ s : State, ValidTable Config.params s.len →
    ∃ t, exec .tbuild s = .next t
      ∧ t = { s with code := t.code, tvalid := true, busy := false, done := true }
      ∧ (∀ x : Symbol, lenOf s.len x = 0 → codeOf t.code x = 0)
      ∧ ∀ order, IsCanonicalOrder s.len order →
        (∀ x, order.head? = some x → codeOf t.code x = 0)
        ∧ ∀ j x y, order[j]? = some x → order[j + 1]? = some y →
          codeOf t.code y = (codeOf t.code x + 1) * 2 ^ (lenOf s.len y - lenOf s.len x)

/-- R122, R183: TBUILD fails with InvalidHeader on every LENTAB that is not valid: with 0x00020000 or the lowest symbol
whose length exceeds MAX_LEN, and, when no length does, with 0x00010000 for the Kraft sum; nothing else changes. Said of
TBUILD's rule under every value of the parameters, because a length can exceed MAX_LEN only where MAX_LEN < 255, and of
`exec`, which runs that rule under the machine's own. -/
def Obligations.TbuildRejectsInvalidTables : Prop :=
  (∀ (p : Params) (s : State),
    (∀ x : Symbol, p.maxLen < lenOf s.len x →
      (∀ y : Symbol, y.toNat < x.toNat → lenOf s.len y ≤ p.maxLen) →
      runCommand (tbuildRule p) s = FailedClean .invalidHeader (BitVec.ofNat 32 (0x00020000 + x.toNat)) s)
    ∧ ((∀ x : Symbol, lenOf s.len x ≤ p.maxLen) → 2 ^ p.maxLen < kraftUnits p s.len →
      runCommand (tbuildRule p) s = FailedClean .invalidHeader 0x00010000#32 s))
  ∧ ∀ s : State, exec .tbuild s = .next (runCommand (tbuildRule Config.params) s)

/-- R123, properties 1 and 2: in every state that meets the table's invariant and has TVALID = 1, every code fits its
length and no code is a prefix of another. -/
def Obligations.BuiltCodesArePrefixFree : Prop :=
  ∀ s : State, TableInv Config.params s → s.tvalid = true →
    (∀ x, present s x → codeOf s.code x < 2 ^ lenOf s.len x)
    ∧ ∀ x y, present s x → present s y → x ≠ y → lenOf s.len x ≤ lenOf s.len y →
      codeOf s.code y / 2 ^ (lenOf s.len y - lenOf s.len x) ≠ codeOf s.code x

/-- R123, properties 3 to 6: codes of equal length are consecutive in symbol order, the first symbol has the all-zero
code, the table is complete exactly if the last symbol has the all-ones code, and the codes depend on LENTAB alone. -/
def Obligations.BuiltCodesAreOrderedAndDetermined : Prop :=
  ∀ s : State, TableInv Config.params s → s.tvalid = true →
    (∀ x y : Symbol, present s x → lenOf s.len y = lenOf s.len x → x.toNat < y.toNat →
      (∀ z : Symbol, x.toNat < z.toNat → z.toNat < y.toNat → lenOf s.len z ≠ lenOf s.len x) →
      codeOf s.code y = codeOf s.code x + 1)
    ∧ (∀ order, IsCanonicalOrder s.len order →
      (∀ x, order.head? = some x → codeOf s.code x = 0)
      ∧ ∀ x, order.getLast? = some x →
        (kraftUnits Config.params s.len = 2 ^ Config.params.maxLen ↔ codeOf s.code x + 1 = 2 ^ lenOf s.len x))
    ∧ ∀ s' : State, TableInv Config.params s' → s'.tvalid = true → s'.len = s.len → s'.code = s.code

/-- R122: TBUILD with TVALID = 1 always succeeds and rewrites the same codes. -/
def Obligations.RebuildingChangesNothing : Prop :=
  ∀ s : State, TableInv Config.params s → s.tvalid = true →
    exec .tbuild s = .next { s with busy := false, done := true }

/-! ### Bit writer and bit reader -/

/-- R130, R131, R136: PUTBITS appends the low NB bits of VAL, MSB first, and changes nothing but the writer and the
bytes it completes; if a byte would complete beyond OBUF it fails with OutputOverflow(0), and no byte outside OBUF[OPTR
..] differs. -/
def Obligations.PutbitsAppendsLiteral : Prop :=
  ∀ (nb : BitVec 5) (val : BitVec 16), 1 ≤ nb.toNat → nb.toNat ≤ 16 →
    (∀ w : Word, Sys2Proof.decode w = .ok (.putbits nb val)
      ↔ w.toNat = 0x31000000 + nb.toNat * 2 ^ 16 + val.toNat)
    ∧ ∀ s : State, WriterInv Config.params s →
      (RoomFor Config.params s nb.toNat →
        ∃ t, exec (.putbits nb val) s = .next t ∧ OnlyWriterChanged s t
          ∧ Appended s t (msbBits nb.toNat val.toNat))
      ∧ (¬ RoomFor Config.params s nb.toNat →
        ∃ t, exec (.putbits nb val) s = .next t
          ∧ Failed .outputOverflow 0 (Config.params.obufBytes - s.optr.toNat) s t)

/-- R137: FLUSH pads the pending byte with zero bits, writes it and records the pad count; with nothing pending it writes
nothing and sets PAD to 0; with bits pending and OBUF full it fails with OutputOverflow(0) and writes nothing. -/
def Obligations.FlushPadsTheFinalByte : Prop :=
  (∀ w : Word, Sys2Proof.decode w = .ok .flush ↔ w = 0x32000000#32)
  ∧ ∀ s : State, WriterInv Config.params s →
    (s.bwcnt = 0 → exec .flush s = .next { s with pad := 0, busy := false, done := true })
    ∧ (0 < s.bwcnt.toNat → s.optr.toNat < Config.params.obufBytes →
      ∃ t, exec .flush s = .next t
        ∧ t = { s with obuf := t.obuf, optr := s.optr + 1, bwacc := 0, bwcnt := 0
                       pad := t.pad, busy := false, done := true }
        ∧ t.pad.toNat = 8 - s.bwcnt.toNat
        ∧ msbBits 8 (t.obufByte s.optr.toNat).toNat
            = pendingBits s ++ List.replicate (8 - s.bwcnt.toNat) false
        ∧ ∀ k, k ≠ s.optr.toNat → t.obufByte k = s.obufByte k)
    ∧ (0 < s.bwcnt.toNat → s.optr.toNat = Config.params.obufBytes →
      exec .flush s = .next (FailedClean .outputOverflow 0 s))

/-- R132-R134, R139: GETBITS returns the next NB bits of the stream, the first read in bit NB-1, and advances BRPOS by
NB; RangeError(1) if BRLEN exceeds IBUF_BYTES, else TruncatedPayload(0) if fewer than NB valid bits remain, with nothing
else changed. -/
def Obligations.GetbitsReadsTheStream : Prop :=
  ∀ nb : BitVec 5, 1 ≤ nb.toNat → nb.toNat ≤ 16 →
    (∀ w : Word, Sys2Proof.decode w = .ok (.getbits nb) ↔ w.toNat = 0x39000000 + nb.toNat * 2 ^ 16)
    ∧ ∀ s : State,
      (ReaderOk Config.params s → s.brpos.toNat + nb.toNat ≤ s.limit →
        ∃ t, exec (.getbits nb) s = .next t
          ∧ t = { s with brpos := t.brpos, rdata := t.rdata, busy := false, done := true }
          ∧ t.brpos.toNat = s.brpos.toNat + nb.toNat
          ∧ t.rdata.toNat < 2 ^ nb.toNat
          ∧ msbBits nb.toNat t.rdata.toNat = readBits s s.brpos.toNat nb.toNat)
      ∧ (¬ ReaderOk Config.params s → exec (.getbits nb) s = .next (FailedClean .rangeError 1 s))
      ∧ (ReaderOk Config.params s → s.limit < s.brpos.toNat + nb.toNat →
        exec (.getbits nb) s = .next (FailedClean .truncatedPayload 0 s))

/-! ### Encoder -/

/-- R150: ENCSYM appends the code of SYM; it fails, in this order, with TableInvalid(0), SymbolNotInTable(SYM) or
OutputOverflow(0). -/
def Obligations.EncsymAppendsCode : Prop :=
  ∀ sym : Symbol,
    (∀ w : Word, Sys2Proof.decode w = .ok (.encsym sym) ↔ w.toNat = 0x40000000 + sym.toNat)
    ∧ ∀ s : State, WriterInv Config.params s →
      (s.tvalid = true → present s sym → RoomFor Config.params s (lenOf s.len sym) →
        ∃ t, exec (.encsym sym) s = .next t ∧ OnlyWriterChanged s t ∧ Appended s t (codeBits s sym))
      ∧ (s.tvalid = false → exec (.encsym sym) s = .next (FailedClean .tableInvalid 0 s))
      ∧ (s.tvalid = true → ¬ present s sym →
        exec (.encsym sym) s = .next (FailedClean .symbolNotInTable (BitVec.ofNat 32 sym.toNat) s))
      ∧ (s.tvalid = true → present s sym → ¬ RoomFor Config.params s (lenOf s.len sym) →
        ∃ t, exec (.encsym sym) s = .next t
          ∧ Failed .outputOverflow 0 (Config.params.obufBytes - s.optr.toNat) s t)

/-- R151: ENCODE appends the codes of the bytes of the input range in order, and changes nothing but the writer and the
bytes it completes. -/
def Obligations.EncodeAppendsCodesInOrder : Prop :=
  (∀ w : Word, Sys2Proof.decode w = .ok .encode ↔ w = 0x41000000#32)
  ∧ ∀ s : State, WriterInv Config.params s → s.tvalid = true →
    s.iptr.toNat + s.icnt.toNat ≤ Config.params.ibufBytes → (∀ x ∈ inputBytes s, present s x) →
    RoomFor Config.params s (codesOf s (inputBytes s)).length →
    ∃ t, exec .encode s = .next t ∧ OnlyWriterChanged s t ∧ Appended s t (codesOf s (inputBytes s))

/-- R151, R184: how ENCODE fails: TableInvalid(0) before RangeError(0), then at the first byte `k` that has no code
SymbolNotInTable(k << 8 | s), or at the first byte whose code does not fit OutputOverflow(0), whichever comes first; the
bytes of OBUF outside those it had written read as before. -/
def Obligations.EncodeFailures : Prop :=
  ∀ s : State, WriterInv Config.params s →
    (s.tvalid = false → exec .encode s = .next (FailedClean .tableInvalid 0 s))
    ∧ (s.tvalid = true → Config.params.ibufBytes < s.iptr.toNat + s.icnt.toNat →
      exec .encode s = .next (FailedClean .rangeError 0 s))
    ∧ (s.tvalid = true → s.iptr.toNat + s.icnt.toNat ≤ Config.params.ibufBytes →
      ∀ (before : List Symbol) (x : Symbol) (after : List Symbol), inputBytes s = before ++ x :: after →
        (∀ y ∈ before, present s y) → RoomFor Config.params s (codesOf s before).length →
        (¬ present s x → ∃ t, exec .encode s = .next t
          ∧ Failed .symbolNotInTable (BitVec.ofNat 32 (before.length * 256 + x.toNat))
            (bytesCompleted s (codesOf s before).length) s t)
        ∧ (present s x → ¬ RoomFor Config.params s (codesOf s (before ++ [x])).length →
          ∃ t, exec .encode s = .next t
            ∧ Failed .outputOverflow 0 (Config.params.obufBytes - s.optr.toNat) s t))

/-- R152: ENCODE and then FLUSH, both successful, from a byte-aligned writer write exactly the codes of the input range,
MSB first, and then PAD zero bits, PAD being minus the number of code bits modulo 8. -/
def Obligations.EncodeThenFlushWritesPayload : Prop :=
  ∀ s t u : State, WriterInv Config.params s → s.bwcnt = 0 → s.errCode = .noError →
    exec .encode s = .next t → t.errCode = .noError → exec .flush t = .next u → u.errCode = .noError →
    u.optr.toNat = s.optr.toNat + ((codesOf s (inputBytes s)).length + 7) / 8
    ∧ u.pad.toNat = (8 - (codesOf s (inputBytes s)).length % 8) % 8
    ∧ byteBits ((List.range (u.optr.toNat - s.optr.toNat)).map fun j => u.obufByte (s.optr.toNat + j))
        = codesOf s (inputBytes s) ++ List.replicate u.pad.toNat false
    ∧ ∀ k, (k < s.optr.toNat ∨ u.optr.toNat ≤ k) → u.obufByte k = s.obufByte k

/-! ### Decoder -/

/-- R160, R161: DECSYM returns the present symbol whose code the stream starts with and advances BRPOS by its length; it
writes nothing else. -/
def Obligations.DecsymReturnsTheSymbol : Prop :=
  (∀ w : Word, Sys2Proof.decode w = .ok .decsym ↔ w = 0x50000000#32)
  ∧ ∀ (s : State) (x : Symbol), TableInv Config.params s → s.tvalid = true → ReaderOk Config.params s →
    present s x → StreamStartsWith s (codeBits s x) →
    exec .decsym s = .next { s with
      brpos := BitVec.ofNat 32 (s.brpos.toNat + lenOf s.len x), rdata := BitVec.ofNat 32 x.toNat
      busy := false, done := true }

/-- R160, R161, R183: how DECSYM fails: TableInvalid(0) before RangeError(1), then TruncatedPayload(0) if the stream ends
at the root or inside a code, or InvalidCode with the index of the bit after which no code matches. -/
def Obligations.DecsymFailures : Prop :=
  ∀ s : State,
    (s.tvalid = false → exec .decsym s = .next (FailedClean .tableInvalid 0 s))
    ∧ (s.tvalid = true → ¬ ReaderOk Config.params s → exec .decsym s = .next (FailedClean .rangeError 1 s))
    ∧ (s.tvalid = true → ReaderOk Config.params s → TableInv Config.params s →
      (StreamEndsMidCode s s.brpos.toNat →
        exec .decsym s = .next (FailedClean .truncatedPayload 0 s))
      ∧ ∀ b, StreamLeavesTree s s.brpos.toNat b →
        exec .decsym s = .next (FailedClean .invalidCode (BitVec.ofNat 32 b) s))

/-- R162: DECODE decodes exactly DCNT symbols, appends each to the writer as eight bits, MSB first, sets RDATA to DCNT
and leaves BRPOS at the first unread bit. -/
def Obligations.DecodeEmitsDeclaredCount : Prop :=
  (∀ w : Word, Sys2Proof.decode w = .ok .decode ↔ w = 0x51000000#32)
  ∧ ∀ (s : State) (xs : List Symbol), WriterInv Config.params s → TableInv Config.params s → s.tvalid = true →
    ReaderOk Config.params s → xs.length = s.dcnt.toNat → (∀ x ∈ xs, present s x) →
    (xs ≠ [] → StreamStartsWith s (codesOf s xs)) → RoomFor Config.params s (8 * xs.length) →
    ∃ t, exec .decode s = .next t
      ∧ t = { s with
          obuf := t.obuf, optr := t.optr, bwacc := t.bwacc, bwcnt := t.bwcnt
          brpos := BitVec.ofNat 32 (s.brpos.toNat + (codesOf s xs).length), rdata := s.dcnt
          busy := false, done := true }
      ∧ Appended s t (byteBits xs)

/-- R163: DECALL decodes until BRPOS reaches the limit at a code boundary, appends each symbol as eight bits and sets
RDATA to the number of symbols; with BRPOS at or past the limit on entry it succeeds with RDATA = 0. -/
def Obligations.DecallEmitsUntilTheLimit : Prop :=
  (∀ w : Word, Sys2Proof.decode w = .ok .decall ↔ w = 0x52000000#32)
  ∧ ∀ s : State, s.tvalid = true → ReaderOk Config.params s →
    (s.limit ≤ s.brpos.toNat → exec .decall s = .next { s with rdata := 0, busy := false, done := true })
    ∧ ∀ xs : List Symbol, WriterInv Config.params s → TableInv Config.params s → (∀ x ∈ xs, present s x) →
      StreamStartsWith s (codesOf s xs) → s.brpos.toNat + (codesOf s xs).length = s.limit →
      RoomFor Config.params s (8 * xs.length) →
      ∃ t, exec .decall s = .next t
        ∧ t = { s with
            obuf := t.obuf, optr := t.optr, bwacc := t.bwacc, bwcnt := t.bwcnt
            brpos := BitVec.ofNat 32 s.limit, rdata := BitVec.ofNat 32 xs.length
            busy := false, done := true }
        ∧ Appended s t (byteBits xs)

/-- R162-R163, R183, R184: how DECODE and DECALL fail after `xs` symbols: TableInvalid(0) before RangeError(1); then
TruncatedPayload with the number of symbols decoded if the stream ends mid-code (for DECODE also at a code boundary
while symbols are still due), InvalidCode with the bit index, or OutputOverflow(0) if the symbol just decoded does not
fit; decoding comes before output. Said of the two rules under every value of the parameters, because a stream can end
inside a code only where MAX_LEN > 1, and of `exec`, which runs them under the machine's own. -/
def Obligations.DecodeAndDecallFailures : Prop :=
  (∀ (p : Params) (s : State),
    (s.tvalid = false → runCommand (decodeRule p) s = FailedClean .tableInvalid 0 s
      ∧ runCommand (decallRule p) s = FailedClean .tableInvalid 0 s)
    ∧ (s.tvalid = true → ¬ ReaderOk p s → runCommand (decodeRule p) s = FailedClean .rangeError 1 s
      ∧ runCommand (decallRule p) s = FailedClean .rangeError 1 s)
    ∧ (s.tvalid = true → ReaderOk p s → TableInv p s → WriterInv p s →
      ∀ xs : List Symbol, (∀ x ∈ xs, present s x) → (xs ≠ [] → StreamStartsWith s (codesOf s xs)) →
        RoomFor p s (8 * xs.length) →
        (xs.length < s.dcnt.toNat → StreamEndsMidCode s (s.brpos.toNat + (codesOf s xs).length) →
          Failed .truncatedPayload (BitVec.ofNat 32 xs.length) (bytesCompleted s (8 * xs.length)) s
            (runCommand (decodeRule p) s))
        ∧ (s.brpos.toNat + (codesOf s xs).length < s.limit →
          StreamEndsMidCode s (s.brpos.toNat + (codesOf s xs).length) →
          Failed .truncatedPayload (BitVec.ofNat 32 xs.length) (bytesCompleted s (8 * xs.length)) s
            (runCommand (decallRule p) s))
        ∧ (∀ b, StreamLeavesTree s (s.brpos.toNat + (codesOf s xs).length) b →
          (xs.length < s.dcnt.toNat →
            Failed .invalidCode (BitVec.ofNat 32 b) (bytesCompleted s (8 * xs.length)) s
              (runCommand (decodeRule p) s))
          ∧ Failed .invalidCode (BitVec.ofNat 32 b) (bytesCompleted s (8 * xs.length)) s
              (runCommand (decallRule p) s))
        ∧ (∀ x, present s x → StreamStartsWith s (codesOf s (xs ++ [x])) →
          ¬ RoomFor p s (8 * (xs.length + 1)) →
          (xs.length < s.dcnt.toNat →
            Failed .outputOverflow 0 (p.obufBytes - s.optr.toNat) s (runCommand (decodeRule p) s))
          ∧ Failed .outputOverflow 0 (p.obufBytes - s.optr.toNat) s (runCommand (decallRule p) s))))
  ∧ ∀ s : State, exec .decode s = .next (runCommand (decodeRule Config.params) s)
    ∧ exec .decall s = .next (runCommand (decallRule Config.params) s)

/-- R165, points 1 and 2: the bytes ENCODE and FLUSH wrote, placed at the start of IBUF with BRLEN and BRPAD set and the
writer and the reader reset, decode back to the input, by DECODE with the count and by DECALL. -/
def Obligations.DecodeInvertsEncode : Prop :=
  ∀ s t u v : State, WriterInv Config.params s → TableInv Config.params s → s.bwcnt = 0 → 1 ≤ s.icnt.toNat →
    s.errCode = .noError → exec .encode s = .next t → t.errCode = .noError →
    exec .flush t = .next u → u.errCode = .noError →
    v.len = s.len → v.tvalid = true → TableInv Config.params v → v.errCode = .noError →
    v.optr = 0 → v.bwcnt = 0 → v.bwacc = 0 → v.brpos = 0 → v.dcnt = s.icnt →
    v.brlen.toNat = u.optr.toNat - s.optr.toNat → v.brpad = u.pad → ReaderOk Config.params v →
    s.icnt.toNat ≤ Config.params.obufBytes →
    (∀ k, k < u.optr.toNat - s.optr.toNat → v.ibufByte k = u.obufByte (s.optr.toNat + k)) →
    ∀ i, i = Instr.decode ∨ i = Instr.decall →
      ∃ w, exec i v = .next w ∧ w.errCode = .noError ∧ w.rdata = s.icnt ∧ w.brpos.toNat = v.limit
        ∧ (List.range s.icnt.toNat).map w.obufByte = inputBytes s

/-- R165, point 3: the same payload with its last byte cut off, under any pad count, makes DECODE of the declared count
fail with TruncatedPayload. -/
def Obligations.TruncatedPayloadIsDetected : Prop :=
  ∀ s t u v : State, WriterInv Config.params s → TableInv Config.params s → s.bwcnt = 0 → 1 ≤ s.icnt.toNat →
    s.errCode = .noError → exec .encode s = .next t → t.errCode = .noError →
    exec .flush t = .next u → u.errCode = .noError →
    v.len = s.len → v.tvalid = true → TableInv Config.params v → v.errCode = .noError →
    v.optr = 0 → v.bwcnt = 0 → v.bwacc = 0 → v.brpos = 0 → v.dcnt = s.icnt →
    v.brlen.toNat = u.optr.toNat - s.optr.toNat - 1 → ReaderOk Config.params v →
    s.icnt.toNat ≤ Config.params.obufBytes →
    (∀ k, k < u.optr.toNat - s.optr.toNat - 1 → v.ibufByte k = u.obufByte (s.optr.toNat + k)) →
    ∃ w, exec .decode v = .next w ∧ w.errCode = .truncatedPayload

/-! ### Errors -/

/-- R181: a command that fails leaves every register, counter and table at its value from before it; only ERRCODE,
ERRINFO, BUSY and DONE differ, and bytes of OBUF at or beyond OPTR (and the model's count of draws, log entry 2). -/
def Obligations.FailedCommandIsRolledBack : Prop :=
  ∀ (i : Instr) (s t : State), s.errCode = .noError → exec i s = .next t → t.errCode ≠ .noError →
    t = { s with
      obuf := t.obuf, draws := t.draws, errCode := t.errCode, errInfo := t.errInfo
      busy := false, done := true }
    ∧ ∀ k, (k < s.optr.toNat ∨ Config.params.obufBytes ≤ k) → t.obufByte k = s.obufByte k

/-- R182, column "raised by": the errors each command can record once it is decoded. -/
def Obligations.ErrorsEachCommandRaises : Prop :=
  ∀ (i : Instr) (s t : State), s.errCode = .noError → exec i s = .next t → t.errCode ≠ .noError →
    t.errCode ∈ mayRaise i

/-! ### Frames: what no command, or only some commands, change -/

/-- R24, R35, R39, R40, R43, R46, R48: no command writes CTRL, IPTR, ICNT, BRLEN, BRPAD, DCNT, TSEL, LENTAB or IBUF, nor
the model's script, responses or reset count (log entries 1 and 6); that PENDING keeps its word, which means nothing once
BUSY = 0 (R50), is the model's choice (log entry 4). -/
def Obligations.NoCommandWritesHostRegisters : Prop :=
  ∀ (i : Instr) (s t : State), exec i s = .next t →
    t.ie = s.ie ∧ t.iptr = s.iptr ∧ t.icnt = s.icnt ∧ t.brlen = s.brlen ∧ t.brpad = s.brpad ∧ t.dcnt = s.dcnt
    ∧ t.tsel = s.tsel ∧ t.len = s.len ∧ t.ibuf = s.ibuf ∧ t.pending = s.pending ∧ t.inputs = s.inputs
    ∧ t.responses = s.responses ∧ t.epoch = s.epoch

/-- R30, R41, R45: only FCLR, FACC and FSCAN change FREQ, FTOTAL or FOVF; R29, R47: only TBUILD changes CODE or TVALID,
and no command clears TVALID. -/
def Obligations.CountersAndTableChangeOnlyByTheirCommands : Prop :=
  ∀ (i : Instr) (s t : State), exec i s = .next t →
    (i = .fclr ∨ i = .fscan ∨ (∃ x, i = .facc x) ∨ (t.freq = s.freq ∧ t.ftotal = s.ftotal ∧ t.fovf = s.fovf))
    ∧ (i = .tbuild ∨ (t.code = s.code ∧ t.tvalid = s.tvalid))
    ∧ (s.tvalid = true → t.tvalid = true)

/-- R36, R37, R49: NOP, CLRERR, FCLR, FACC, FSCAN, TBUILD, BRRESET, GETBITS and DECSYM change neither the writer nor a
byte of OBUF; only BWRESET and FLUSH change PAD; BWRESET changes no byte of OBUF. -/
def Obligations.WriterChangesOnlyByItsCommands : Prop :=
  ∀ (i : Instr) (s t : State), exec i s = .next t →
    (i = .bwreset ∨ (∃ n v, i = .putbits n v) ∨ i = .flush ∨ (∃ x, i = .encsym x) ∨ i = .encode ∨ i = .decode
      ∨ i = .decall ∨ (t.optr = s.optr ∧ t.bwacc = s.bwacc ∧ t.bwcnt = s.bwcnt ∧ t.obuf = s.obuf))
    ∧ (i = .bwreset ∨ i = .flush ∨ t.pad = s.pad)
    ∧ (i = .bwreset → t.obuf = s.obuf)

/-- R34, R38: only BRRESET, GETBITS, DECSYM, DECODE and DECALL change BRPOS, and only GETBITS, DECSYM, DECODE and DECALL
change RDATA. -/
def Obligations.ReaderChangesOnlyByItsCommands : Prop :=
  ∀ (i : Instr) (s t : State), exec i s = .next t →
    (i = .brreset ∨ (∃ n, i = .getbits n) ∨ i = .decsym ∨ i = .decode ∨ i = .decall ∨ t.brpos = s.brpos)
    ∧ ((∃ n, i = .getbits n) ∨ i = .decsym ∨ i = .decode ∨ i = .decall ∨ t.rdata = s.rdata)

/-- R49, R207: a successful command stores to OBUF only from its OPTR up to its final OPTR: every other byte reads as
before, for every command; and OPTR never goes down except by BWRESET. -/
def Obligations.SuccessfulCommandStoresOnlyFromOptr : Prop :=
  ∀ (i : Instr) (s t : State), s.errCode = .noError → exec i s = .next t → t.errCode = .noError →
    (∀ k, (k < s.optr.toNat ∨ t.optr.toNat ≤ k) → t.obufByte k = s.obufByte k)
    ∧ (i = .bwreset ∨ s.optr.toNat ≤ t.optr.toNat)

/-! ### Invariant -/

/-- R10, R29, R33, R36, R37, R38, R47: every step, of the host, the engine or the reset input, keeps the invariant; that
the byte arrays are canonical lists of written cells is the model's form (log entry 1). -/
def Obligations.StepKeepsInvariant : Prop :=
  ∀ s t : State, s.Inv Config.params → step s = .next t → t.Inv Config.params

/-- The reset state meets the invariant (R53); CODE and PENDING hold the model's reset values in it (log entries 3, 4). -/
def Obligations.ResetMeetsInvariant : Prop := State.reset.Inv Config.params
end

