-- ==== Sys2Proof/Laws/State.lean ====
section
/-! SUPPORT. One lemma per field of State per named register update (Sys2Proof/Machine/Ops.lean), so that no proof
unfolds a record update. -/

namespace Sys2Proof.Machine

variable (s : State)

/-! ### putObuf -/

@[simp] theorem State.putObuf_ie (k : Nat) (b : Byte) : (s.putObuf k b).ie = s.ie := rfl
@[simp] theorem State.putObuf_busy (k : Nat) (b : Byte) : (s.putObuf k b).busy = s.busy := rfl
@[simp] theorem State.putObuf_done (k : Nat) (b : Byte) : (s.putObuf k b).done = s.done := rfl
@[simp] theorem State.putObuf_tvalid (k : Nat) (b : Byte) : (s.putObuf k b).tvalid = s.tvalid := rfl
@[simp] theorem State.putObuf_fovf (k : Nat) (b : Byte) : (s.putObuf k b).fovf = s.fovf := rfl
@[simp] theorem State.putObuf_errCode (k : Nat) (b : Byte) : (s.putObuf k b).errCode = s.errCode := rfl
@[simp] theorem State.putObuf_errInfo (k : Nat) (b : Byte) : (s.putObuf k b).errInfo = s.errInfo := rfl
@[simp] theorem State.putObuf_rdata (k : Nat) (b : Byte) : (s.putObuf k b).rdata = s.rdata := rfl
@[simp] theorem State.putObuf_iptr (k : Nat) (b : Byte) : (s.putObuf k b).iptr = s.iptr := rfl
@[simp] theorem State.putObuf_icnt (k : Nat) (b : Byte) : (s.putObuf k b).icnt = s.icnt := rfl
@[simp] theorem State.putObuf_optr (k : Nat) (b : Byte) : (s.putObuf k b).optr = s.optr := rfl
@[simp] theorem State.putObuf_bwacc (k : Nat) (b : Byte) : (s.putObuf k b).bwacc = s.bwacc := rfl
@[simp] theorem State.putObuf_bwcnt (k : Nat) (b : Byte) : (s.putObuf k b).bwcnt = s.bwcnt := rfl
@[simp] theorem State.putObuf_pad (k : Nat) (b : Byte) : (s.putObuf k b).pad = s.pad := rfl
@[simp] theorem State.putObuf_brpos (k : Nat) (b : Byte) : (s.putObuf k b).brpos = s.brpos := rfl
@[simp] theorem State.putObuf_brlen (k : Nat) (b : Byte) : (s.putObuf k b).brlen = s.brlen := rfl
@[simp] theorem State.putObuf_brpad (k : Nat) (b : Byte) : (s.putObuf k b).brpad = s.brpad := rfl
@[simp] theorem State.putObuf_dcnt (k : Nat) (b : Byte) : (s.putObuf k b).dcnt = s.dcnt := rfl
@[simp] theorem State.putObuf_ftotal (k : Nat) (b : Byte) : (s.putObuf k b).ftotal = s.ftotal := rfl
@[simp] theorem State.putObuf_tsel (k : Nat) (b : Byte) : (s.putObuf k b).tsel = s.tsel := rfl
@[simp] theorem State.putObuf_freq (k : Nat) (b : Byte) : (s.putObuf k b).freq = s.freq := rfl
@[simp] theorem State.putObuf_len (k : Nat) (b : Byte) : (s.putObuf k b).len = s.len := rfl
@[simp] theorem State.putObuf_code (k : Nat) (b : Byte) : (s.putObuf k b).code = s.code := rfl
@[simp] theorem State.putObuf_ibuf (k : Nat) (b : Byte) : (s.putObuf k b).ibuf = s.ibuf := rfl
@[simp] theorem State.putObuf_obuf (k : Nat) (b : Byte) : (s.putObuf k b).obuf = Memory.write s.obuf k b := rfl
@[simp] theorem State.putObuf_pending (k : Nat) (b : Byte) : (s.putObuf k b).pending = s.pending := rfl
@[simp] theorem State.putObuf_inputs (k : Nat) (b : Byte) : (s.putObuf k b).inputs = s.inputs := rfl
@[simp] theorem State.putObuf_responses (k : Nat) (b : Byte) : (s.putObuf k b).responses = s.responses := rfl
@[simp] theorem State.putObuf_epoch (k : Nat) (b : Byte) : (s.putObuf k b).epoch = s.epoch := rfl
@[simp] theorem State.putObuf_draws (k : Nat) (b : Byte) : (s.putObuf k b).draws = s.draws := rfl

/-! ### setWriter -/

@[simp] theorem State.setWriter_ie (o : Word) (a : BitVec 8) (c : BitVec 4) : (s.setWriter o a c).ie = s.ie := rfl
@[simp] theorem State.setWriter_busy (o : Word) (a : BitVec 8) (c : BitVec 4) : (s.setWriter o a c).busy = s.busy := rfl
@[simp] theorem State.setWriter_done (o : Word) (a : BitVec 8) (c : BitVec 4) : (s.setWriter o a c).done = s.done := rfl
@[simp] theorem State.setWriter_tvalid (o : Word) (a : BitVec 8) (c : BitVec 4) : (s.setWriter o a c).tvalid = s.tvalid := rfl
@[simp] theorem State.setWriter_fovf (o : Word) (a : BitVec 8) (c : BitVec 4) : (s.setWriter o a c).fovf = s.fovf := rfl
@[simp] theorem State.setWriter_errCode (o : Word) (a : BitVec 8) (c : BitVec 4) : (s.setWriter o a c).errCode = s.errCode := rfl
@[simp] theorem State.setWriter_errInfo (o : Word) (a : BitVec 8) (c : BitVec 4) : (s.setWriter o a c).errInfo = s.errInfo := rfl
@[simp] theorem State.setWriter_rdata (o : Word) (a : BitVec 8) (c : BitVec 4) : (s.setWriter o a c).rdata = s.rdata := rfl
@[simp] theorem State.setWriter_iptr (o : Word) (a : BitVec 8) (c : BitVec 4) : (s.setWriter o a c).iptr = s.iptr := rfl
@[simp] theorem State.setWriter_icnt (o : Word) (a : BitVec 8) (c : BitVec 4) : (s.setWriter o a c).icnt = s.icnt := rfl
@[simp] theorem State.setWriter_optr (o : Word) (a : BitVec 8) (c : BitVec 4) : (s.setWriter o a c).optr = o := rfl
@[simp] theorem State.setWriter_bwacc (o : Word) (a : BitVec 8) (c : BitVec 4) : (s.setWriter o a c).bwacc = a := rfl
@[simp] theorem State.setWriter_bwcnt (o : Word) (a : BitVec 8) (c : BitVec 4) : (s.setWriter o a c).bwcnt = c := rfl
@[simp] theorem State.setWriter_pad (o : Word) (a : BitVec 8) (c : BitVec 4) : (s.setWriter o a c).pad = s.pad := rfl
@[simp] theorem State.setWriter_brpos (o : Word) (a : BitVec 8) (c : BitVec 4) : (s.setWriter o a c).brpos = s.brpos := rfl
@[simp] theorem State.setWriter_brlen (o : Word) (a : BitVec 8) (c : BitVec 4) : (s.setWriter o a c).brlen = s.brlen := rfl
@[simp] theorem State.setWriter_brpad (o : Word) (a : BitVec 8) (c : BitVec 4) : (s.setWriter o a c).brpad = s.brpad := rfl
@[simp] theorem State.setWriter_dcnt (o : Word) (a : BitVec 8) (c : BitVec 4) : (s.setWriter o a c).dcnt = s.dcnt := rfl
@[simp] theorem State.setWriter_ftotal (o : Word) (a : BitVec 8) (c : BitVec 4) : (s.setWriter o a c).ftotal = s.ftotal := rfl
@[simp] theorem State.setWriter_tsel (o : Word) (a : BitVec 8) (c : BitVec 4) : (s.setWriter o a c).tsel = s.tsel := rfl
@[simp] theorem State.setWriter_freq (o : Word) (a : BitVec 8) (c : BitVec 4) : (s.setWriter o a c).freq = s.freq := rfl
@[simp] theorem State.setWriter_len (o : Word) (a : BitVec 8) (c : BitVec 4) : (s.setWriter o a c).len = s.len := rfl
@[simp] theorem State.setWriter_code (o : Word) (a : BitVec 8) (c : BitVec 4) : (s.setWriter o a c).code = s.code := rfl
@[simp] theorem State.setWriter_ibuf (o : Word) (a : BitVec 8) (c : BitVec 4) : (s.setWriter o a c).ibuf = s.ibuf := rfl
@[simp] theorem State.setWriter_obuf (o : Word) (a : BitVec 8) (c : BitVec 4) : (s.setWriter o a c).obuf = s.obuf := rfl
@[simp] theorem State.setWriter_pending (o : Word) (a : BitVec 8) (c : BitVec 4) : (s.setWriter o a c).pending = s.pending := rfl
@[simp] theorem State.setWriter_inputs (o : Word) (a : BitVec 8) (c : BitVec 4) : (s.setWriter o a c).inputs = s.inputs := rfl
@[simp] theorem State.setWriter_responses (o : Word) (a : BitVec 8) (c : BitVec 4) : (s.setWriter o a c).responses = s.responses := rfl
@[simp] theorem State.setWriter_epoch (o : Word) (a : BitVec 8) (c : BitVec 4) : (s.setWriter o a c).epoch = s.epoch := rfl
@[simp] theorem State.setWriter_draws (o : Word) (a : BitVec 8) (c : BitVec 4) : (s.setWriter o a c).draws = s.draws := rfl

/-! ### setPad -/

@[simp] theorem State.setPad_ie (v : BitVec 3) : (s.setPad v).ie = s.ie := rfl
@[simp] theorem State.setPad_busy (v : BitVec 3) : (s.setPad v).busy = s.busy := rfl
@[simp] theorem State.setPad_done (v : BitVec 3) : (s.setPad v).done = s.done := rfl
@[simp] theorem State.setPad_tvalid (v : BitVec 3) : (s.setPad v).tvalid = s.tvalid := rfl
@[simp] theorem State.setPad_fovf (v : BitVec 3) : (s.setPad v).fovf = s.fovf := rfl
@[simp] theorem State.setPad_errCode (v : BitVec 3) : (s.setPad v).errCode = s.errCode := rfl
@[simp] theorem State.setPad_errInfo (v : BitVec 3) : (s.setPad v).errInfo = s.errInfo := rfl
@[simp] theorem State.setPad_rdata (v : BitVec 3) : (s.setPad v).rdata = s.rdata := rfl
@[simp] theorem State.setPad_iptr (v : BitVec 3) : (s.setPad v).iptr = s.iptr := rfl
@[simp] theorem State.setPad_icnt (v : BitVec 3) : (s.setPad v).icnt = s.icnt := rfl
@[simp] theorem State.setPad_optr (v : BitVec 3) : (s.setPad v).optr = s.optr := rfl
@[simp] theorem State.setPad_bwacc (v : BitVec 3) : (s.setPad v).bwacc = s.bwacc := rfl
@[simp] theorem State.setPad_bwcnt (v : BitVec 3) : (s.setPad v).bwcnt = s.bwcnt := rfl
@[simp] theorem State.setPad_pad (v : BitVec 3) : (s.setPad v).pad = v := rfl
@[simp] theorem State.setPad_brpos (v : BitVec 3) : (s.setPad v).brpos = s.brpos := rfl
@[simp] theorem State.setPad_brlen (v : BitVec 3) : (s.setPad v).brlen = s.brlen := rfl
@[simp] theorem State.setPad_brpad (v : BitVec 3) : (s.setPad v).brpad = s.brpad := rfl
@[simp] theorem State.setPad_dcnt (v : BitVec 3) : (s.setPad v).dcnt = s.dcnt := rfl
@[simp] theorem State.setPad_ftotal (v : BitVec 3) : (s.setPad v).ftotal = s.ftotal := rfl
@[simp] theorem State.setPad_tsel (v : BitVec 3) : (s.setPad v).tsel = s.tsel := rfl
@[simp] theorem State.setPad_freq (v : BitVec 3) : (s.setPad v).freq = s.freq := rfl
@[simp] theorem State.setPad_len (v : BitVec 3) : (s.setPad v).len = s.len := rfl
@[simp] theorem State.setPad_code (v : BitVec 3) : (s.setPad v).code = s.code := rfl
@[simp] theorem State.setPad_ibuf (v : BitVec 3) : (s.setPad v).ibuf = s.ibuf := rfl
@[simp] theorem State.setPad_obuf (v : BitVec 3) : (s.setPad v).obuf = s.obuf := rfl
@[simp] theorem State.setPad_pending (v : BitVec 3) : (s.setPad v).pending = s.pending := rfl
@[simp] theorem State.setPad_inputs (v : BitVec 3) : (s.setPad v).inputs = s.inputs := rfl
@[simp] theorem State.setPad_responses (v : BitVec 3) : (s.setPad v).responses = s.responses := rfl
@[simp] theorem State.setPad_epoch (v : BitVec 3) : (s.setPad v).epoch = s.epoch := rfl
@[simp] theorem State.setPad_draws (v : BitVec 3) : (s.setPad v).draws = s.draws := rfl

/-! ### setBrpos -/

@[simp] theorem State.setBrpos_ie (v : Word) : (s.setBrpos v).ie = s.ie := rfl
@[simp] theorem State.setBrpos_busy (v : Word) : (s.setBrpos v).busy = s.busy := rfl
@[simp] theorem State.setBrpos_done (v : Word) : (s.setBrpos v).done = s.done := rfl
@[simp] theorem State.setBrpos_tvalid (v : Word) : (s.setBrpos v).tvalid = s.tvalid := rfl
@[simp] theorem State.setBrpos_fovf (v : Word) : (s.setBrpos v).fovf = s.fovf := rfl
@[simp] theorem State.setBrpos_errCode (v : Word) : (s.setBrpos v).errCode = s.errCode := rfl
@[simp] theorem State.setBrpos_errInfo (v : Word) : (s.setBrpos v).errInfo = s.errInfo := rfl
@[simp] theorem State.setBrpos_rdata (v : Word) : (s.setBrpos v).rdata = s.rdata := rfl
@[simp] theorem State.setBrpos_iptr (v : Word) : (s.setBrpos v).iptr = s.iptr := rfl
@[simp] theorem State.setBrpos_icnt (v : Word) : (s.setBrpos v).icnt = s.icnt := rfl
@[simp] theorem State.setBrpos_optr (v : Word) : (s.setBrpos v).optr = s.optr := rfl
@[simp] theorem State.setBrpos_bwacc (v : Word) : (s.setBrpos v).bwacc = s.bwacc := rfl
@[simp] theorem State.setBrpos_bwcnt (v : Word) : (s.setBrpos v).bwcnt = s.bwcnt := rfl
@[simp] theorem State.setBrpos_pad (v : Word) : (s.setBrpos v).pad = s.pad := rfl
@[simp] theorem State.setBrpos_brpos (v : Word) : (s.setBrpos v).brpos = v := rfl
@[simp] theorem State.setBrpos_brlen (v : Word) : (s.setBrpos v).brlen = s.brlen := rfl
@[simp] theorem State.setBrpos_brpad (v : Word) : (s.setBrpos v).brpad = s.brpad := rfl
@[simp] theorem State.setBrpos_dcnt (v : Word) : (s.setBrpos v).dcnt = s.dcnt := rfl
@[simp] theorem State.setBrpos_ftotal (v : Word) : (s.setBrpos v).ftotal = s.ftotal := rfl
@[simp] theorem State.setBrpos_tsel (v : Word) : (s.setBrpos v).tsel = s.tsel := rfl
@[simp] theorem State.setBrpos_freq (v : Word) : (s.setBrpos v).freq = s.freq := rfl
@[simp] theorem State.setBrpos_len (v : Word) : (s.setBrpos v).len = s.len := rfl
@[simp] theorem State.setBrpos_code (v : Word) : (s.setBrpos v).code = s.code := rfl
@[simp] theorem State.setBrpos_ibuf (v : Word) : (s.setBrpos v).ibuf = s.ibuf := rfl
@[simp] theorem State.setBrpos_obuf (v : Word) : (s.setBrpos v).obuf = s.obuf := rfl
@[simp] theorem State.setBrpos_pending (v : Word) : (s.setBrpos v).pending = s.pending := rfl
@[simp] theorem State.setBrpos_inputs (v : Word) : (s.setBrpos v).inputs = s.inputs := rfl
@[simp] theorem State.setBrpos_responses (v : Word) : (s.setBrpos v).responses = s.responses := rfl
@[simp] theorem State.setBrpos_epoch (v : Word) : (s.setBrpos v).epoch = s.epoch := rfl
@[simp] theorem State.setBrpos_draws (v : Word) : (s.setBrpos v).draws = s.draws := rfl

/-! ### setRdata -/

@[simp] theorem State.setRdata_ie (v : Word) : (s.setRdata v).ie = s.ie := rfl
@[simp] theorem State.setRdata_busy (v : Word) : (s.setRdata v).busy = s.busy := rfl
@[simp] theorem State.setRdata_done (v : Word) : (s.setRdata v).done = s.done := rfl
@[simp] theorem State.setRdata_tvalid (v : Word) : (s.setRdata v).tvalid = s.tvalid := rfl
@[simp] theorem State.setRdata_fovf (v : Word) : (s.setRdata v).fovf = s.fovf := rfl
@[simp] theorem State.setRdata_errCode (v : Word) : (s.setRdata v).errCode = s.errCode := rfl
@[simp] theorem State.setRdata_errInfo (v : Word) : (s.setRdata v).errInfo = s.errInfo := rfl
@[simp] theorem State.setRdata_rdata (v : Word) : (s.setRdata v).rdata = v := rfl
@[simp] theorem State.setRdata_iptr (v : Word) : (s.setRdata v).iptr = s.iptr := rfl
@[simp] theorem State.setRdata_icnt (v : Word) : (s.setRdata v).icnt = s.icnt := rfl
@[simp] theorem State.setRdata_optr (v : Word) : (s.setRdata v).optr = s.optr := rfl
@[simp] theorem State.setRdata_bwacc (v : Word) : (s.setRdata v).bwacc = s.bwacc := rfl
@[simp] theorem State.setRdata_bwcnt (v : Word) : (s.setRdata v).bwcnt = s.bwcnt := rfl
@[simp] theorem State.setRdata_pad (v : Word) : (s.setRdata v).pad = s.pad := rfl
@[simp] theorem State.setRdata_brpos (v : Word) : (s.setRdata v).brpos = s.brpos := rfl
@[simp] theorem State.setRdata_brlen (v : Word) : (s.setRdata v).brlen = s.brlen := rfl
@[simp] theorem State.setRdata_brpad (v : Word) : (s.setRdata v).brpad = s.brpad := rfl
@[simp] theorem State.setRdata_dcnt (v : Word) : (s.setRdata v).dcnt = s.dcnt := rfl
@[simp] theorem State.setRdata_ftotal (v : Word) : (s.setRdata v).ftotal = s.ftotal := rfl
@[simp] theorem State.setRdata_tsel (v : Word) : (s.setRdata v).tsel = s.tsel := rfl
@[simp] theorem State.setRdata_freq (v : Word) : (s.setRdata v).freq = s.freq := rfl
@[simp] theorem State.setRdata_len (v : Word) : (s.setRdata v).len = s.len := rfl
@[simp] theorem State.setRdata_code (v : Word) : (s.setRdata v).code = s.code := rfl
@[simp] theorem State.setRdata_ibuf (v : Word) : (s.setRdata v).ibuf = s.ibuf := rfl
@[simp] theorem State.setRdata_obuf (v : Word) : (s.setRdata v).obuf = s.obuf := rfl
@[simp] theorem State.setRdata_pending (v : Word) : (s.setRdata v).pending = s.pending := rfl
@[simp] theorem State.setRdata_inputs (v : Word) : (s.setRdata v).inputs = s.inputs := rfl
@[simp] theorem State.setRdata_responses (v : Word) : (s.setRdata v).responses = s.responses := rfl
@[simp] theorem State.setRdata_epoch (v : Word) : (s.setRdata v).epoch = s.epoch := rfl
@[simp] theorem State.setRdata_draws (v : Word) : (s.setRdata v).draws = s.draws := rfl

/-! ### setCounts -/

@[simp] theorem State.setCounts_ie (f : Vector Word 256) (n : Word) (o : Bool) : (s.setCounts f n o).ie = s.ie := rfl
@[simp] theorem State.setCounts_busy (f : Vector Word 256) (n : Word) (o : Bool) : (s.setCounts f n o).busy = s.busy := rfl
@[simp] theorem State.setCounts_done (f : Vector Word 256) (n : Word) (o : Bool) : (s.setCounts f n o).done = s.done := rfl
@[simp] theorem State.setCounts_tvalid (f : Vector Word 256) (n : Word) (o : Bool) : (s.setCounts f n o).tvalid = s.tvalid := rfl
@[simp] theorem State.setCounts_fovf (f : Vector Word 256) (n : Word) (o : Bool) : (s.setCounts f n o).fovf = o := rfl
@[simp] theorem State.setCounts_errCode (f : Vector Word 256) (n : Word) (o : Bool) : (s.setCounts f n o).errCode = s.errCode := rfl
@[simp] theorem State.setCounts_errInfo (f : Vector Word 256) (n : Word) (o : Bool) : (s.setCounts f n o).errInfo = s.errInfo := rfl
@[simp] theorem State.setCounts_rdata (f : Vector Word 256) (n : Word) (o : Bool) : (s.setCounts f n o).rdata = s.rdata := rfl
@[simp] theorem State.setCounts_iptr (f : Vector Word 256) (n : Word) (o : Bool) : (s.setCounts f n o).iptr = s.iptr := rfl
@[simp] theorem State.setCounts_icnt (f : Vector Word 256) (n : Word) (o : Bool) : (s.setCounts f n o).icnt = s.icnt := rfl
@[simp] theorem State.setCounts_optr (f : Vector Word 256) (n : Word) (o : Bool) : (s.setCounts f n o).optr = s.optr := rfl
@[simp] theorem State.setCounts_bwacc (f : Vector Word 256) (n : Word) (o : Bool) : (s.setCounts f n o).bwacc = s.bwacc := rfl
@[simp] theorem State.setCounts_bwcnt (f : Vector Word 256) (n : Word) (o : Bool) : (s.setCounts f n o).bwcnt = s.bwcnt := rfl
@[simp] theorem State.setCounts_pad (f : Vector Word 256) (n : Word) (o : Bool) : (s.setCounts f n o).pad = s.pad := rfl
@[simp] theorem State.setCounts_brpos (f : Vector Word 256) (n : Word) (o : Bool) : (s.setCounts f n o).brpos = s.brpos := rfl
@[simp] theorem State.setCounts_brlen (f : Vector Word 256) (n : Word) (o : Bool) : (s.setCounts f n o).brlen = s.brlen := rfl
@[simp] theorem State.setCounts_brpad (f : Vector Word 256) (n : Word) (o : Bool) : (s.setCounts f n o).brpad = s.brpad := rfl
@[simp] theorem State.setCounts_dcnt (f : Vector Word 256) (n : Word) (o : Bool) : (s.setCounts f n o).dcnt = s.dcnt := rfl
@[simp] theorem State.setCounts_ftotal (f : Vector Word 256) (n : Word) (o : Bool) : (s.setCounts f n o).ftotal = n := rfl
@[simp] theorem State.setCounts_tsel (f : Vector Word 256) (n : Word) (o : Bool) : (s.setCounts f n o).tsel = s.tsel := rfl
@[simp] theorem State.setCounts_freq (f : Vector Word 256) (n : Word) (o : Bool) : (s.setCounts f n o).freq = f := rfl
@[simp] theorem State.setCounts_len (f : Vector Word 256) (n : Word) (o : Bool) : (s.setCounts f n o).len = s.len := rfl
@[simp] theorem State.setCounts_code (f : Vector Word 256) (n : Word) (o : Bool) : (s.setCounts f n o).code = s.code := rfl
@[simp] theorem State.setCounts_ibuf (f : Vector Word 256) (n : Word) (o : Bool) : (s.setCounts f n o).ibuf = s.ibuf := rfl
@[simp] theorem State.setCounts_obuf (f : Vector Word 256) (n : Word) (o : Bool) : (s.setCounts f n o).obuf = s.obuf := rfl
@[simp] theorem State.setCounts_pending (f : Vector Word 256) (n : Word) (o : Bool) : (s.setCounts f n o).pending = s.pending := rfl
@[simp] theorem State.setCounts_inputs (f : Vector Word 256) (n : Word) (o : Bool) : (s.setCounts f n o).inputs = s.inputs := rfl
@[simp] theorem State.setCounts_responses (f : Vector Word 256) (n : Word) (o : Bool) : (s.setCounts f n o).responses = s.responses := rfl
@[simp] theorem State.setCounts_epoch (f : Vector Word 256) (n : Word) (o : Bool) : (s.setCounts f n o).epoch = s.epoch := rfl
@[simp] theorem State.setCounts_draws (f : Vector Word 256) (n : Word) (o : Bool) : (s.setCounts f n o).draws = s.draws := rfl

/-! ### setTable -/

@[simp] theorem State.setTable_ie (c : Vector Code 256) : (s.setTable c).ie = s.ie := rfl
@[simp] theorem State.setTable_busy (c : Vector Code 256) : (s.setTable c).busy = s.busy := rfl
@[simp] theorem State.setTable_done (c : Vector Code 256) : (s.setTable c).done = s.done := rfl
@[simp] theorem State.setTable_tvalid (c : Vector Code 256) : (s.setTable c).tvalid = true := rfl
@[simp] theorem State.setTable_fovf (c : Vector Code 256) : (s.setTable c).fovf = s.fovf := rfl
@[simp] theorem State.setTable_errCode (c : Vector Code 256) : (s.setTable c).errCode = s.errCode := rfl
@[simp] theorem State.setTable_errInfo (c : Vector Code 256) : (s.setTable c).errInfo = s.errInfo := rfl
@[simp] theorem State.setTable_rdata (c : Vector Code 256) : (s.setTable c).rdata = s.rdata := rfl
@[simp] theorem State.setTable_iptr (c : Vector Code 256) : (s.setTable c).iptr = s.iptr := rfl
@[simp] theorem State.setTable_icnt (c : Vector Code 256) : (s.setTable c).icnt = s.icnt := rfl
@[simp] theorem State.setTable_optr (c : Vector Code 256) : (s.setTable c).optr = s.optr := rfl
@[simp] theorem State.setTable_bwacc (c : Vector Code 256) : (s.setTable c).bwacc = s.bwacc := rfl
@[simp] theorem State.setTable_bwcnt (c : Vector Code 256) : (s.setTable c).bwcnt = s.bwcnt := rfl
@[simp] theorem State.setTable_pad (c : Vector Code 256) : (s.setTable c).pad = s.pad := rfl
@[simp] theorem State.setTable_brpos (c : Vector Code 256) : (s.setTable c).brpos = s.brpos := rfl
@[simp] theorem State.setTable_brlen (c : Vector Code 256) : (s.setTable c).brlen = s.brlen := rfl
@[simp] theorem State.setTable_brpad (c : Vector Code 256) : (s.setTable c).brpad = s.brpad := rfl
@[simp] theorem State.setTable_dcnt (c : Vector Code 256) : (s.setTable c).dcnt = s.dcnt := rfl
@[simp] theorem State.setTable_ftotal (c : Vector Code 256) : (s.setTable c).ftotal = s.ftotal := rfl
@[simp] theorem State.setTable_tsel (c : Vector Code 256) : (s.setTable c).tsel = s.tsel := rfl
@[simp] theorem State.setTable_freq (c : Vector Code 256) : (s.setTable c).freq = s.freq := rfl
@[simp] theorem State.setTable_len (c : Vector Code 256) : (s.setTable c).len = s.len := rfl
@[simp] theorem State.setTable_code (c : Vector Code 256) : (s.setTable c).code = c := rfl
@[simp] theorem State.setTable_ibuf (c : Vector Code 256) : (s.setTable c).ibuf = s.ibuf := rfl
@[simp] theorem State.setTable_obuf (c : Vector Code 256) : (s.setTable c).obuf = s.obuf := rfl
@[simp] theorem State.setTable_pending (c : Vector Code 256) : (s.setTable c).pending = s.pending := rfl
@[simp] theorem State.setTable_inputs (c : Vector Code 256) : (s.setTable c).inputs = s.inputs := rfl
@[simp] theorem State.setTable_responses (c : Vector Code 256) : (s.setTable c).responses = s.responses := rfl
@[simp] theorem State.setTable_epoch (c : Vector Code 256) : (s.setTable c).epoch = s.epoch := rfl
@[simp] theorem State.setTable_draws (c : Vector Code 256) : (s.setTable c).draws = s.draws := rfl

/-! ### setError -/

@[simp] theorem State.setError_ie (e : ErrCode) (i : Word) : (s.setError e i).ie = s.ie := rfl
@[simp] theorem State.setError_busy (e : ErrCode) (i : Word) : (s.setError e i).busy = s.busy := rfl
@[simp] theorem State.setError_done (e : ErrCode) (i : Word) : (s.setError e i).done = s.done := rfl
@[simp] theorem State.setError_tvalid (e : ErrCode) (i : Word) : (s.setError e i).tvalid = s.tvalid := rfl
@[simp] theorem State.setError_fovf (e : ErrCode) (i : Word) : (s.setError e i).fovf = s.fovf := rfl
@[simp] theorem State.setError_errCode (e : ErrCode) (i : Word) : (s.setError e i).errCode = e := rfl
@[simp] theorem State.setError_errInfo (e : ErrCode) (i : Word) : (s.setError e i).errInfo = i := rfl
@[simp] theorem State.setError_rdata (e : ErrCode) (i : Word) : (s.setError e i).rdata = s.rdata := rfl
@[simp] theorem State.setError_iptr (e : ErrCode) (i : Word) : (s.setError e i).iptr = s.iptr := rfl
@[simp] theorem State.setError_icnt (e : ErrCode) (i : Word) : (s.setError e i).icnt = s.icnt := rfl
@[simp] theorem State.setError_optr (e : ErrCode) (i : Word) : (s.setError e i).optr = s.optr := rfl
@[simp] theorem State.setError_bwacc (e : ErrCode) (i : Word) : (s.setError e i).bwacc = s.bwacc := rfl
@[simp] theorem State.setError_bwcnt (e : ErrCode) (i : Word) : (s.setError e i).bwcnt = s.bwcnt := rfl
@[simp] theorem State.setError_pad (e : ErrCode) (i : Word) : (s.setError e i).pad = s.pad := rfl
@[simp] theorem State.setError_brpos (e : ErrCode) (i : Word) : (s.setError e i).brpos = s.brpos := rfl
@[simp] theorem State.setError_brlen (e : ErrCode) (i : Word) : (s.setError e i).brlen = s.brlen := rfl
@[simp] theorem State.setError_brpad (e : ErrCode) (i : Word) : (s.setError e i).brpad = s.brpad := rfl
@[simp] theorem State.setError_dcnt (e : ErrCode) (i : Word) : (s.setError e i).dcnt = s.dcnt := rfl
@[simp] theorem State.setError_ftotal (e : ErrCode) (i : Word) : (s.setError e i).ftotal = s.ftotal := rfl
@[simp] theorem State.setError_tsel (e : ErrCode) (i : Word) : (s.setError e i).tsel = s.tsel := rfl
@[simp] theorem State.setError_freq (e : ErrCode) (i : Word) : (s.setError e i).freq = s.freq := rfl
@[simp] theorem State.setError_len (e : ErrCode) (i : Word) : (s.setError e i).len = s.len := rfl
@[simp] theorem State.setError_code (e : ErrCode) (i : Word) : (s.setError e i).code = s.code := rfl
@[simp] theorem State.setError_ibuf (e : ErrCode) (i : Word) : (s.setError e i).ibuf = s.ibuf := rfl
@[simp] theorem State.setError_obuf (e : ErrCode) (i : Word) : (s.setError e i).obuf = s.obuf := rfl
@[simp] theorem State.setError_pending (e : ErrCode) (i : Word) : (s.setError e i).pending = s.pending := rfl
@[simp] theorem State.setError_inputs (e : ErrCode) (i : Word) : (s.setError e i).inputs = s.inputs := rfl
@[simp] theorem State.setError_responses (e : ErrCode) (i : Word) : (s.setError e i).responses = s.responses := rfl
@[simp] theorem State.setError_epoch (e : ErrCode) (i : Word) : (s.setError e i).epoch = s.epoch := rfl
@[simp] theorem State.setError_draws (e : ErrCode) (i : Word) : (s.setError e i).draws = s.draws := rfl

/-! ### complete -/

@[simp] theorem State.complete_ie : s.complete.ie = s.ie := rfl
@[simp] theorem State.complete_busy : s.complete.busy = false := rfl
@[simp] theorem State.complete_done : s.complete.done = true := rfl
@[simp] theorem State.complete_tvalid : s.complete.tvalid = s.tvalid := rfl
@[simp] theorem State.complete_fovf : s.complete.fovf = s.fovf := rfl
@[simp] theorem State.complete_errCode : s.complete.errCode = s.errCode := rfl
@[simp] theorem State.complete_errInfo : s.complete.errInfo = s.errInfo := rfl
@[simp] theorem State.complete_rdata : s.complete.rdata = s.rdata := rfl
@[simp] theorem State.complete_iptr : s.complete.iptr = s.iptr := rfl
@[simp] theorem State.complete_icnt : s.complete.icnt = s.icnt := rfl
@[simp] theorem State.complete_optr : s.complete.optr = s.optr := rfl
@[simp] theorem State.complete_bwacc : s.complete.bwacc = s.bwacc := rfl
@[simp] theorem State.complete_bwcnt : s.complete.bwcnt = s.bwcnt := rfl
@[simp] theorem State.complete_pad : s.complete.pad = s.pad := rfl
@[simp] theorem State.complete_brpos : s.complete.brpos = s.brpos := rfl
@[simp] theorem State.complete_brlen : s.complete.brlen = s.brlen := rfl
@[simp] theorem State.complete_brpad : s.complete.brpad = s.brpad := rfl
@[simp] theorem State.complete_dcnt : s.complete.dcnt = s.dcnt := rfl
@[simp] theorem State.complete_ftotal : s.complete.ftotal = s.ftotal := rfl
@[simp] theorem State.complete_tsel : s.complete.tsel = s.tsel := rfl
@[simp] theorem State.complete_freq : s.complete.freq = s.freq := rfl
@[simp] theorem State.complete_len : s.complete.len = s.len := rfl
@[simp] theorem State.complete_code : s.complete.code = s.code := rfl
@[simp] theorem State.complete_ibuf : s.complete.ibuf = s.ibuf := rfl
@[simp] theorem State.complete_obuf : s.complete.obuf = s.obuf := rfl
@[simp] theorem State.complete_pending : s.complete.pending = s.pending := rfl
@[simp] theorem State.complete_inputs : s.complete.inputs = s.inputs := rfl
@[simp] theorem State.complete_responses : s.complete.responses = s.responses := rfl
@[simp] theorem State.complete_epoch : s.complete.epoch = s.epoch := rfl
@[simp] theorem State.complete_draws : s.complete.draws = s.draws := rfl

/-! ### accept -/

@[simp] theorem State.accept_ie (w : Word) : (s.accept w).ie = s.ie := rfl
@[simp] theorem State.accept_busy (w : Word) : (s.accept w).busy = true := rfl
@[simp] theorem State.accept_done (w : Word) : (s.accept w).done = false := rfl
@[simp] theorem State.accept_tvalid (w : Word) : (s.accept w).tvalid = s.tvalid := rfl
@[simp] theorem State.accept_fovf (w : Word) : (s.accept w).fovf = s.fovf := rfl
@[simp] theorem State.accept_errCode (w : Word) : (s.accept w).errCode = s.errCode := rfl
@[simp] theorem State.accept_errInfo (w : Word) : (s.accept w).errInfo = s.errInfo := rfl
@[simp] theorem State.accept_rdata (w : Word) : (s.accept w).rdata = s.rdata := rfl
@[simp] theorem State.accept_iptr (w : Word) : (s.accept w).iptr = s.iptr := rfl
@[simp] theorem State.accept_icnt (w : Word) : (s.accept w).icnt = s.icnt := rfl
@[simp] theorem State.accept_optr (w : Word) : (s.accept w).optr = s.optr := rfl
@[simp] theorem State.accept_bwacc (w : Word) : (s.accept w).bwacc = s.bwacc := rfl
@[simp] theorem State.accept_bwcnt (w : Word) : (s.accept w).bwcnt = s.bwcnt := rfl
@[simp] theorem State.accept_pad (w : Word) : (s.accept w).pad = s.pad := rfl
@[simp] theorem State.accept_brpos (w : Word) : (s.accept w).brpos = s.brpos := rfl
@[simp] theorem State.accept_brlen (w : Word) : (s.accept w).brlen = s.brlen := rfl
@[simp] theorem State.accept_brpad (w : Word) : (s.accept w).brpad = s.brpad := rfl
@[simp] theorem State.accept_dcnt (w : Word) : (s.accept w).dcnt = s.dcnt := rfl
@[simp] theorem State.accept_ftotal (w : Word) : (s.accept w).ftotal = s.ftotal := rfl
@[simp] theorem State.accept_tsel (w : Word) : (s.accept w).tsel = s.tsel := rfl
@[simp] theorem State.accept_freq (w : Word) : (s.accept w).freq = s.freq := rfl
@[simp] theorem State.accept_len (w : Word) : (s.accept w).len = s.len := rfl
@[simp] theorem State.accept_code (w : Word) : (s.accept w).code = s.code := rfl
@[simp] theorem State.accept_ibuf (w : Word) : (s.accept w).ibuf = s.ibuf := rfl
@[simp] theorem State.accept_obuf (w : Word) : (s.accept w).obuf = s.obuf := rfl
@[simp] theorem State.accept_pending (w : Word) : (s.accept w).pending = w := rfl
@[simp] theorem State.accept_inputs (w : Word) : (s.accept w).inputs = s.inputs := rfl
@[simp] theorem State.accept_responses (w : Word) : (s.accept w).responses = s.responses := rfl
@[simp] theorem State.accept_epoch (w : Word) : (s.accept w).epoch = s.epoch := rfl
@[simp] theorem State.accept_draws (w : Word) : (s.accept w).draws = s.draws := rfl

/-! ### takeError -/

variable (e : ErrCode) (i : Word) (u : State)

@[simp] theorem takeError_ie : (takeError e i s u).ie = s.ie := rfl
@[simp] theorem takeError_busy : (takeError e i s u).busy = s.busy := rfl
@[simp] theorem takeError_done : (takeError e i s u).done = s.done := rfl
@[simp] theorem takeError_tvalid : (takeError e i s u).tvalid = s.tvalid := rfl
@[simp] theorem takeError_fovf : (takeError e i s u).fovf = s.fovf := rfl
@[simp] theorem takeError_errCode : (takeError e i s u).errCode = e := rfl
@[simp] theorem takeError_errInfo : (takeError e i s u).errInfo = i := rfl
@[simp] theorem takeError_rdata : (takeError e i s u).rdata = s.rdata := rfl
@[simp] theorem takeError_iptr : (takeError e i s u).iptr = s.iptr := rfl
@[simp] theorem takeError_icnt : (takeError e i s u).icnt = s.icnt := rfl
@[simp] theorem takeError_optr : (takeError e i s u).optr = s.optr := rfl
@[simp] theorem takeError_bwacc : (takeError e i s u).bwacc = s.bwacc := rfl
@[simp] theorem takeError_bwcnt : (takeError e i s u).bwcnt = s.bwcnt := rfl
@[simp] theorem takeError_pad : (takeError e i s u).pad = s.pad := rfl
@[simp] theorem takeError_brpos : (takeError e i s u).brpos = s.brpos := rfl
@[simp] theorem takeError_brlen : (takeError e i s u).brlen = s.brlen := rfl
@[simp] theorem takeError_brpad : (takeError e i s u).brpad = s.brpad := rfl
@[simp] theorem takeError_dcnt : (takeError e i s u).dcnt = s.dcnt := rfl
@[simp] theorem takeError_ftotal : (takeError e i s u).ftotal = s.ftotal := rfl
@[simp] theorem takeError_tsel : (takeError e i s u).tsel = s.tsel := rfl
@[simp] theorem takeError_freq : (takeError e i s u).freq = s.freq := rfl
@[simp] theorem takeError_len : (takeError e i s u).len = s.len := rfl
@[simp] theorem takeError_code : (takeError e i s u).code = s.code := rfl
@[simp] theorem takeError_ibuf : (takeError e i s u).ibuf = s.ibuf := rfl
@[simp] theorem takeError_obuf : (takeError e i s u).obuf = unspecify (bytesWritten s u) s.optr.toNat s.draws s.obuf := rfl
@[simp] theorem takeError_pending : (takeError e i s u).pending = s.pending := rfl
@[simp] theorem takeError_inputs : (takeError e i s u).inputs = s.inputs := rfl
@[simp] theorem takeError_responses : (takeError e i s u).responses = s.responses := rfl
@[simp] theorem takeError_epoch : (takeError e i s u).epoch = s.epoch := rfl
@[simp] theorem takeError_draws : (takeError e i s u).draws = s.draws + bytesWritten s u := rfl

end Sys2Proof.Machine
end

