-- ==== Sys2Proof/Laws/Memory.lean ====
section
/-! SUPPORT. The byte arrays: a read after a write, the canonical form, and the indices a write can add; the same for the
bytes a failed command leaves unspecified. -/

namespace Sys2Proof.Machine

theorem Memory.written_write_same (m : List Host.Cell) (k : Nat) (b : Byte) :
    Memory.written (Memory.write m k b) k = some b := by
  induction m with
  | nil => simp [Memory.write, Memory.written]
  | cons c m ih =>
    rw [Memory.write]
    split
    · simp [Memory.written]
    · split
      · simp [Memory.written]
      · rename_i h
        simpa [Memory.written, Ne.symm h] using ih

theorem Memory.written_write_ne (m : List Host.Cell) {k j : Nat} (b : Byte) (h : j ≠ k) :
    Memory.written (Memory.write m k b) j = Memory.written m j := by
  induction m with
  | nil => simp [Memory.write, Memory.written, h.symm]
  | cons c m ih =>
    rw [Memory.write]
    split
    · rw [Memory.written, if_neg h.symm]
    · split
      · rename_i hk
        subst hk
        simp [Memory.written, h.symm]
      · simp [Memory.written, ih]

/-- The indices of a written array are its own and the index written. -/
theorem Memory.mem_write {m : List Host.Cell} {k : Nat} {b : Byte} {c : Host.Cell}
    (h : c ∈ Memory.write m k b) : c = (k, b) ∨ c ∈ m := by
  induction m with
  | nil => simpa [Memory.write] using h
  | cons d m ih =>
    rw [Memory.write] at h
    split at h
    · simpa using h
    · split at h
      · rcases List.mem_cons.1 h with h | h
        · exact .inl h
        · exact .inr (List.mem_cons_of_mem _ h)
      · rcases List.mem_cons.1 h with h | h
        · exact .inr (h ▸ List.mem_cons_self)
        · exact (ih h).imp id (List.mem_cons_of_mem _)

theorem Memory.write_rising {m : List Host.Cell} (k : Nat) (b : Byte)
    (h : (m.map Prod.fst).Pairwise (· < ·)) : ((Memory.write m k b).map Prod.fst).Pairwise (· < ·) := by
  induction m with
  | nil => simp [Memory.write]
  | cons c m ih =>
    rw [List.map_cons, List.pairwise_cons] at h
    rw [Memory.write]
    split
    · rename_i hk
      simp only [List.map_cons, List.pairwise_cons]
      refine ⟨fun a ha => ?_, h⟩
      rcases List.mem_cons.1 ha with rfl | ha
      · exact hk
      · exact lt_trans hk (h.1 a ha)
    · split
      · rename_i hk
        subst hk
        simpa using h
      · simp only [List.map_cons, List.pairwise_cons]
        refine ⟨fun a ha => ?_, ih h.2⟩
        obtain ⟨d, hd, rfl⟩ := List.mem_map.1 ha
        rcases Memory.mem_write hd with rfl | hd
        · show c.1 < k
          omega
        · exact h.1 _ (List.mem_map_of_mem hd)

/-- Every write keeps the canonical form. -/
theorem Memory.write_wf {m : List Host.Cell} (k : Nat) (b : Byte) (h : Memory.wf m) : Memory.wf (Memory.write m k b) :=
  ⟨Memory.write_rising k b h.1, fun _ _ => by simp [Memory.unlisted]⟩

/-- Every write inside an array of `n` bytes keeps the written indices below `n`. -/
theorem Memory.write_inside {m : List Host.Cell} {k n : Nat} (b : Byte) (hk : k < n)
    (h : ∀ c ∈ m, c.1 < n) : ∀ c ∈ Memory.write m k b, c.1 < n := by
  intro c hc
  rcases Memory.mem_write hc with rfl | hc
  · exact hk
  · exact h c hc

/-- The reset state's byte arrays are in canonical form. -/
theorem Memory.reset_wf : Memory.wf State.reset.ibuf ∧ Memory.wf State.reset.obuf := by decide

theorem Memory.unspecify_wf (n k d : Nat) {m : List Host.Cell} (h : Memory.wf m) : Memory.wf (unspecify n k d m) := by
  induction n generalizing k d m with
  | zero => exact h
  | succ n ih => exact ih _ _ (Memory.write_wf _ _ h)

/-- The bytes outside the `n` from index `k` on stay as they are. -/
theorem Memory.written_unspecify (n k d : Nat) (m : List Host.Cell) {j : Nat} (h : j < k ∨ k + n ≤ j) :
    Memory.written (unspecify n k d m) j = Memory.written m j := by
  induction n generalizing k d m with
  | zero => rfl
  | succ n ih => rw [unspecify, ih _ _ _ (by omega), Memory.written_write_ne _ _ (by omega)]

theorem Memory.unspecify_inside (n k d : Nat) {m : List Host.Cell} {top : Nat} (hk : n = 0 ∨ k + n ≤ top)
    (h : ∀ c ∈ m, c.1 < top) : ∀ c ∈ unspecify n k d m, c.1 < top := by
  induction n generalizing k d m with
  | zero => exact h
  | succ n ih => exact ih _ _ (by omega) (Memory.write_inside _ (by omega) h)

/-- The four bytes of a host word written keep the canonical form of the array. -/
theorem State.obufByte_putObuf_same (s : State) (k : Nat) (b : Byte) : (s.putObuf k b).obufByte k = b := by
  simp [State.obufByte, Memory.written_write_same]

theorem State.obufByte_putObuf_ne (s : State) {k j : Nat} (b : Byte) (h : j ≠ k) :
    (s.putObuf k b).obufByte j = s.obufByte j := by
  simp [State.obufByte, Memory.written_write_ne _ _ h]

/-- Two states with the same written bytes and the same reset count read alike. -/
theorem State.ibufByte_congr {s t : State} (hm : t.ibuf = s.ibuf) (he : t.epoch = s.epoch) (k : Nat) :
    t.ibufByte k = s.ibufByte k := by rw [State.ibufByte, State.ibufByte, hm, he]

theorem State.obufByte_congr {s t : State} (hm : t.obuf = s.obuf) (he : t.epoch = s.epoch) (k : Nat) :
    t.obufByte k = s.obufByte k := by rw [State.obufByte, State.obufByte, hm, he]

end Sys2Proof.Machine
end

