-- ==== Sys2Proof/Laws/Command.lean ====
section
/-! SUPPORT. Running a rule: how `bind` and `runCommand` take apart, the state a rule ends in, and what taking an error
leaves alone. -/

namespace Sys2Proof.Machine

/-- The state a rule ends in, whether it ran to its end or reached a `raise`. -/
def Result.state {α : Type} : Result α → State
  | .ok _ t => t
  | .raised _ _ t => t

@[simp] theorem Result.state_ok {α : Type} (a : α) (t : State) : (Result.ok a t).state = t := rfl
@[simp] theorem Result.state_raised {α : Type} (e : ErrCode) (i : Word) (t : State) :
    (Result.raised e i t : Result α).state = t := rfl
@[simp] theorem Result.bind_ok {α β : Type} (a : α) (t : State) (f : α → State → Result β) :
    (Result.ok a t).bind f = f a t := rfl
@[simp] theorem Result.bind_raised {α β : Type} (e : ErrCode) (i : Word) (t : State) (f : α → State → Result β) :
    (Result.raised e i t : Result α).bind f = .raised e i t := rfl

/-- A bind that runs to its end ran both parts to their ends. -/
theorem Result.bind_eq_ok {α β : Type} {r : Result α} {f : α → State → Result β} {b : β} {u : State}
    (h : r.bind f = .ok b u) : ∃ a t, r = .ok a t ∧ f a t = .ok b u := by
  cases r with
  | ok a t => exact ⟨a, t, rfl, h⟩
  | raised e i t => cases h

/-- A bind that raises did so in one of its parts. -/
theorem Result.bind_eq_raised {α β : Type} {r : Result α} {f : α → State → Result β} {e : ErrCode} {i : Word}
    {u : State} (h : r.bind f = .raised e i u) :
    r = .raised e i u ∨ ∃ a t, r = .ok a t ∧ f a t = .raised e i u := by
  cases r with
  | ok a t => exact .inr ⟨a, t, rfl, h⟩
  | raised e' i' t => exact .inl (by simpa using h)

/-- Everything a command's step can do (R180): the rule ran to its end, or it raised and the error was taken. -/
theorem runCommand_cases (rule : State → Result Unit) (s : State) :
    (∃ t, rule s = .ok () t ∧ runCommand rule s = t.complete)
    ∨ ∃ e i u, rule s = .raised e i u ∧ runCommand rule s = (takeError e i s u).complete := by
  cases h : rule s with
  | ok a t => exact .inl ⟨t, rfl, by simp [runCommand, h]⟩
  | raised e i u => exact .inr ⟨e, i, u, rfl, by simp [runCommand, h]⟩

theorem runCommand_ok {rule : State → Result Unit} {s t : State} (h : rule s = .ok () t) :
    runCommand rule s = t.complete := by simp [runCommand, h]

theorem runCommand_raised {rule : State → Result Unit} {s u : State} {e : ErrCode} {i : Word}
    (h : rule s = .raised e i u) : runCommand rule s = (takeError e i s u).complete := by simp [runCommand, h]

/-- An error raised before any byte was written changes ERRCODE and ERRINFO only (R181). -/
theorem takeError_of_optr {e : ErrCode} {i : Word} {s u : State} (h : u.optr = s.optr) :
    takeError e i s u = { s with errCode := e, errInfo := i } := by
  simp [takeError, bytesWritten, h, unspecify]

/-- The bytes outside those the command wrote read as before the error (R181). -/
theorem takeError_obufByte {e : ErrCode} {i : Word} {s u : State} {k : Nat}
    (h : k < s.optr.toNat ∨ s.optr.toNat + bytesWritten s u ≤ k) :
    (takeError e i s u).obufByte k = s.obufByte k := by
  simp [State.obufByte, Memory.written_unspecify _ _ _ _ h]

/-- The rule of a command, over the machine's parameters. -/
def ruleOf : Instr → State → Result Unit
  | .nop => nopRule
  | .clrerr => clrerrRule
  | .fclr => fclrRule
  | .facc sym => faccRule sym
  | .fscan => fscanRule Config.params
  | .tbuild => tbuildRule Config.params
  | .bwreset => bwresetRule
  | .putbits nb val => putbitsRule Config.params nb val
  | .flush => flushRule Config.params
  | .brreset => brresetRule
  | .getbits nb => getbitsRule Config.params nb
  | .encsym sym => encsymRule Config.params sym
  | .encode => encodeRule Config.params
  | .decsym => decsymRule Config.params
  | .decode => decodeRule Config.params
  | .decall => decallRule Config.params

/-- Every command's step is its rule, run (R180). -/
theorem exec_eq (i : Instr) (s : State) : exec i s = .next (runCommand (ruleOf i) s) := by cases i <;> rfl

end Sys2Proof.Machine
end

