-- ==== Sys2Proof/Laws/Stream.lean ====
section
/-! SUPPORT. What the bit writer, the bit reader, the encoder and the decoder can do to the state, said once for every
loop of theirs (`StreamFrame`), whether it runs to its end or raises. -/

namespace Sys2Proof

theorem Params.obufBytes_le (p : Params) : p.obufBytes ≤ 65536 := by
  have := p.obufWordsMinusOne.isLt
  unfold Params.obufBytes
  omega

theorem Params.ibufBytes_le (p : Params) : p.ibufBytes ≤ 65536 := by
  have := p.ibufWordsMinusOne.isLt
  unfold Params.ibufBytes
  omega

end Sys2Proof

namespace Sys2Proof.Machine

/-- The state without the registers and bytes that the writer and the reader move. -/
def State.streamless (s : State) : State := { s with obuf := [], optr := 0, bwacc := 0, bwcnt := 0, brpos := 0 }

/-- From `s` to `t` only the writer, the reader's position and OBUF bytes from OPTR of `s` up to OPTR of `t` differ, and
the writer's and OBUF's invariants are kept. -/
structure StreamFrame (p : Params) (s t : State) : Prop where
  same : t.streamless = s.streamless
  mono : s.optr.toNat ≤ t.optr.toNat
  bound : t.optr = s.optr ∨ t.optr.toNat ≤ p.obufBytes
  bytes : ∀ k, k < s.optr.toNat ∨ t.optr.toNat ≤ k → t.obufByte k = s.obufByte k
  wf : Memory.wf s.obuf → Memory.wf t.obuf
  inside : (∀ c ∈ s.obuf, c.1 < p.obufBytes) → ∀ c ∈ t.obuf, c.1 < p.obufBytes
  writer : s.bwcnt.toNat ≤ 7 ∧ s.bwacc.toNat < 2 ^ s.bwcnt.toNat →
    t.bwcnt.toNat ≤ 7 ∧ t.bwacc.toNat < 2 ^ t.bwcnt.toNat
  reader : t.brpos.toNat ≤ max s.brpos.toNat s.limit

/-- States that agree but for the writer, the reader's position and OBUF, written as a record. -/
theorem State.eq_of_streamless {s t : State} (h : t.streamless = s.streamless) :
    t = { s with obuf := t.obuf, optr := t.optr, bwacc := t.bwacc, bwcnt := t.bwcnt, brpos := t.brpos } := by
  cases s; cases t
  simp only [State.streamless, State.mk.injEq] at h
  simp [h]

theorem State.limit_of_streamless {s t : State} (h : t.streamless = s.streamless) : t.limit = s.limit := by
  show t.streamless.limit = s.streamless.limit
  rw [h]

theorem State.streamBit_of_streamless {s t : State} (h : t.streamless = s.streamless) (q : Nat) :
    t.streamBit q = s.streamBit q := by
  show t.streamless.streamBit q = s.streamless.streamBit q
  rw [h]

theorem StreamFrame.refl (p : Params) (s : State) : StreamFrame p s s :=
  ⟨rfl, le_rfl, .inl rfl, fun _ _ => rfl, id, id, id, le_max_left _ _⟩

theorem StreamFrame.trans {p : Params} {s t u : State} (h : StreamFrame p s t) (k : StreamFrame p t u) :
    StreamFrame p s u where
  same := k.same.trans h.same
  mono := h.mono.trans k.mono
  bound := by
    rcases k.bound with e | b
    · rw [e]
      exact h.bound
    · exact .inr b
  bytes j hj := by
    have := h.mono
    have := k.mono
    rw [k.bytes j (by omega), h.bytes j (by omega)]
  wf w := k.wf (h.wf w)
  inside w := k.inside (h.inside w)
  writer w := k.writer (h.writer w)
  reader := by
    have h1 := h.reader
    have h2 := k.reader
    rw [State.limit_of_streamless h.same] at h2
    omega

/-- The frame of a sequence from the frames of its parts. -/
theorem StreamFrame.bind {p : Params} {s : State} {α β : Type} {r : Result α} {f : α → State → Result β}
    (h : StreamFrame p s r.state) (k : ∀ a t, r = .ok a t → StreamFrame p t (f a t).state) :
    StreamFrame p s (r.bind f).state := by
  cases r with
  | ok a t => exact h.trans (k a t rfl)
  | raised e i t => exact h

/-! ### The bit writer -/

theorem shiftIn_toNat (acc : BitVec 8) (b : Bool) :
    (shiftIn acc b).toNat = (2 * acc.toNat + b.toNat) % 256 := by
  have : acc.toNat < 256 := acc.isLt
  refine (BitVec.toNat_append (acc.extractLsb' 0 7) (BitVec.ofBool b)).trans ?_
  rw [← Nat.shiftLeft_add_eq_or_of_lt (BitVec.ofBool b).isLt]
  cases b <;> simp [Nat.shiftLeft_eq] <;> omega

/-- Everything `PutBit` can do (R130): take the bit as pending, complete a byte at OPTR, or overflow. -/
theorem putBit_cases (p : Params) (b : Bool) (s : State) :
    (s.bwcnt ≠ 7 ∧ putBit p b s = .ok () (s.setWriter s.optr (shiftIn s.bwacc b) (s.bwcnt + 1)))
    ∨ (s.bwcnt = 7 ∧ s.optr.toNat < p.obufBytes ∧
        putBit p b s = .ok () ((s.putObuf s.optr.toNat (shiftIn s.bwacc b)).setWriter (s.optr + 1) 0 0))
    ∨ (s.bwcnt = 7 ∧ p.obufBytes ≤ s.optr.toNat ∧ putBit p b s = .raised .outputOverflow 0 s) := by
  unfold putBit
  split
  · split
    · exact .inr (.inr ⟨‹_›, ‹_›, rfl⟩)
    · exact .inr (.inl ⟨‹_›, by omega, rfl⟩)
  · exact .inl ⟨‹_›, rfl⟩

/-- OPTR below the end of OBUF goes up without wrapping. -/
theorem optr_succ {p : Params} {o : Word} (h : o.toNat < p.obufBytes) : (o + 1).toNat = o.toNat + 1 := by
  have := p.obufBytes_le
  have e : (1 : Word).toNat = 1 := rfl
  rw [BitVec.toNat_add, e]
  omega

theorem putBit_frame (p : Params) (b : Bool) (s : State) : StreamFrame p s (putBit p b s).state := by
  rcases putBit_cases p b s with ⟨hc, h⟩ | ⟨hc, ho, h⟩ | ⟨_, _, h⟩ <;> rw [h]
  · refine ⟨rfl, le_rfl, .inl rfl, fun _ _ => rfl, id, id, fun ⟨h7, ha⟩ => ?_, le_max_left _ _⟩
    have h7' : s.bwcnt.toNat ≠ 7 := fun e => hc (BitVec.eq_of_toNat_eq e)
    have hn : s.bwcnt.toNat < 7 := by omega
    have e1 : (s.bwcnt + 1).toNat = s.bwcnt.toNat + 1 := by
      have e : (1 : BitVec 4).toNat = 1 := rfl
      rw [BitVec.toNat_add, e]
      omega
    simp only [Result.state_ok, State.setWriter_bwcnt, State.setWriter_bwacc, e1]
    refine ⟨by omega, ?_⟩
    rw [shiftIn_toNat, Nat.pow_succ]
    have : b.toNat ≤ 1 := Bool.toNat_le b
    omega
  · have e := optr_succ ho
    refine ⟨rfl, by simp only [Result.state_ok, State.setWriter_optr, e]; omega, .inr (by simp only [Result.state_ok, State.setWriter_optr, e]; omega), ?_, ?_, ?_, ?_,
      le_max_left _ _⟩
    · intro k hk
      simp only [Result.state_ok, State.setWriter_optr, e] at hk
      exact State.obufByte_putObuf_ne _ _ (by omega)
    · exact fun w => Memory.write_wf _ _ w
    · exact fun w => Memory.write_inside _ ho w
    · simp
  · exact StreamFrame.refl p s

theorem putBits_frame (p : Params) (n v : Nat) (s : State) : StreamFrame p s (putBits p n v s).state := by
  induction n generalizing s with
  | zero => exact StreamFrame.refl p s
  | succ n ih => exact (putBit_frame p _ s).bind fun _ t _ => ih t

/-- The only error the writer raises is OutputOverflow(0) (R130). -/
theorem putBits_raised {p : Params} {n v : Nat} {s u : State} {e : ErrCode} {i : Word}
    (h : putBits p n v s = .raised e i u) : e = .outputOverflow ∧ i = 0 := by
  induction n generalizing s with
  | zero => cases h
  | succ n ih =>
    rcases Result.bind_eq_raised h with h | ⟨_, t, _, h⟩
    · rcases putBit_cases p (v.testBit n) s with ⟨_, k⟩ | ⟨_, _, k⟩ | ⟨_, _, k⟩ <;> rw [k] at h <;> cases h
      exact ⟨rfl, rfl⟩
    · exact ih h

/-! ### The encoder -/

theorem encodeSym_frame (p : Params) (k : Nat) (x : Symbol) (s : State) :
    StreamFrame p s (encodeSym p k x s).state := by
  unfold encodeSym
  split
  · exact StreamFrame.refl p s
  · exact putBits_frame p _ _ s

theorem encodeFrom_frame (p : Params) (n k : Nat) (s : State) : StreamFrame p s (encodeFrom p n k s).state := by
  induction n generalizing k s with
  | zero => exact StreamFrame.refl p s
  | succ n ih => exact (encodeSym_frame p k _ s).bind fun _ t _ => ih (k + 1) t

/-! ### The bit reader -/

/-- `GetBit` below the limit moves BRPOS only, and not beyond the limit (R133). -/
theorem getBit_frame (p : Params) {s : State} (h : s.brpos.toNat < s.limit) : StreamFrame p s (getBit s).2 := by
  refine ⟨rfl, le_rfl, .inl rfl, fun _ _ => rfl, id, id, id, ?_⟩
  have e : (1 : Word).toNat = 1 := rfl
  have : (s.brpos + 1).toNat ≤ s.brpos.toNat + 1 := by
    rw [BitVec.toNat_add, e]
    exact Nat.mod_le _ _
  simp only [getBit, State.setBrpos_brpos]
  omega

/-- The GETBITS loop with enough bits before the limit (R139). -/
theorem getBits_frame (p : Params) (n v : Nat) {s : State} (h : s.brpos.toNat + n ≤ s.limit) :
    StreamFrame p s (getBits n v s).2 := by
  induction n generalizing v s with
  | zero => exact StreamFrame.refl p s
  | succ n ih =>
    refine (getBit_frame p (by omega)).trans (ih _ ?_)
    have e : (1 : Word).toNat = 1 := rfl
    have : (s.brpos + 1).toNat ≤ s.brpos.toNat + 1 := by
      rw [BitVec.toNat_add, e]
      exact Nat.mod_le _ _
    show (s.brpos + 1).toNat + n ≤ s.limit
    omega

/-! ### The decoder -/

theorem decodeLoop_frame (p : Params) (k fuel l v : Nat) (s : State) :
    StreamFrame p s (decodeLoop k fuel l v s).state := by
  induction fuel generalizing l v s with
  | zero => exact StreamFrame.refl p s
  | succ fuel ih =>
    rw [decodeLoop]
    split
    · exact StreamFrame.refl p s
    · have g := getBit_frame p (s := s) (by omega)
      dsimp only
      split
      · exact g
      · split
        · exact g.trans (ih _ _ _)
        · exact g

theorem decodeOne_frame (p : Params) (k : Nat) (s : State) : StreamFrame p s (decodeOne p k s).state :=
  (decodeLoop_frame p k 255 0 0 s).bind fun x t _ => putBits_frame p 8 x.toNat t

theorem decodeFrom_frame (p : Params) (n k : Nat) (s : State) : StreamFrame p s (decodeFrom p n k s).state := by
  induction n generalizing k s with
  | zero => exact StreamFrame.refl p s
  | succ n ih => exact (decodeOne_frame p k s).bind fun _ t _ => ih (k + 1) t

theorem decodeAllFrom_frame (p : Params) (fuel k : Nat) (s : State) :
    StreamFrame p s (decodeAllFrom p fuel k s).state := by
  induction fuel generalizing k s with
  | zero => exact StreamFrame.refl p s
  | succ fuel ih =>
    rw [decodeAllFrom]
    split
    · exact (decodeOne_frame p k s).bind fun _ t _ => ih (k + 1) t
    · exact StreamFrame.refl p s

end Sys2Proof.Machine
end

