-- ==== Sys2Proof/Laws/Tables.lean ====
section
/-! SUPPORT. Tables indexed by a symbol: a read after a write, and the list of all symbols. -/

namespace Sys2Proof.Machine

@[simp] theorem tableAt_set_same {α : Type} (t : Vector α 256) (x : Symbol) (v : α) :
    tableAt (tableSet t x v) x = v := by simp [tableAt, tableSet]

theorem tableAt_set_ne {α : Type} (t : Vector α 256) {x y : Symbol} (v : α) (h : y ≠ x) :
    tableAt (tableSet t x v) y = tableAt t y := by
  have hn : x.toNat ≠ y.toNat := fun e => h (BitVec.eq_of_toNat_eq e.symm)
  simp [tableAt, tableSet, hn]

@[simp] theorem tableAt_replicate {α : Type} (v : α) (x : Symbol) : tableAt (Vector.replicate 256 v) x = v := by
  simp [tableAt]

/-- Two tables with the same entries are equal. -/
theorem table_ext {α : Type} {t u : Vector α 256} (h : ∀ x : Symbol, tableAt t x = tableAt u x) : t = u := by
  ext i hi
  have := h (BitVec.ofNat 8 i)
  have hm : i % 256 = i := Nat.mod_eq_of_lt hi
  simpa [tableAt, hm] using this

@[simp] theorem mem_symbols (x : Symbol) : x ∈ symbols :=
  List.mem_map.2 ⟨x.toNat, List.mem_range.2 x.isLt, by simp⟩

theorem symbols_nodup : symbols.Nodup := by
  refine List.Nodup.map_on (fun a ha b hb h => ?_) List.nodup_range
  have := congrArg BitVec.toNat h
  simp only [BitVec.toNat_ofNat, List.mem_range] at this ha hb
  omega

end Sys2Proof.Machine
end

