-- ==== Sys2Proof/Laws/Decoder.lean ====
section
/-! SUPPORT. The decoder's searches say what rule R160 asks, and its fuel never runs out. -/

namespace Sys2Proof.Machine

/-- A leaf found is a present symbol with that code (R160). -/
theorem leafAt_some {s : State} {l v : Nat} {x : Symbol} (h : leafAt s l v = some x) :
    0 < lenOf s.len x ∧ lenOf s.len x = l ∧ codeOf s.code x = v := by
  simpa using List.find?_some h

/-- No leaf is found exactly if no present symbol has that code (R160). -/
theorem leafAt_none {s : State} {l v : Nat} :
    leafAt s l v = none ↔ ∀ x, 0 < lenOf s.len x → lenOf s.len x = l → codeOf s.code x ≠ v := by
  simp [leafAt, List.find?_eq_none]

/-- A longer code that starts with the bits collected (R160). -/
theorem hasLonger_iff {s : State} {l v : Nat} :
    hasLonger s l v = true ↔ ∃ x, l < lenOf s.len x ∧ codeOf s.code x >>> (lenOf s.len x - l) = v := by
  simp [hasLonger]

theorem lenOf_le (t : Vector Byte 256) (x : Symbol) : lenOf t x ≤ 255 := by
  have := (tableAt t x).isLt
  unfold lenOf
  omega

/-- The loop of DecodeSym ends by itself: once the fuel covers the 255 bits a code can have, more fuel changes
nothing (R160: "the loop ends after at most max LEN bits"). -/
theorem decodeLoop_fuel (k n : Nat) {fuel l v : Nat} {s : State} (hf : 0 < fuel) (h : 255 ≤ l + fuel) :
    decodeLoop k (fuel + n) l v s = decodeLoop k fuel l v s := by
  induction fuel generalizing l v s with
  | zero => omega
  | succ fuel ih =>
    rw [Nat.add_right_comm, decodeLoop, decodeLoop]
    split
    · rfl
    · dsimp only
      split
      · rfl
      · split
        · rename_i hl
          obtain ⟨x, hx, _⟩ := hasLonger_iff.1 hl
          have : lenOf s.len x ≤ 255 := lenOf_le _ _
          exact ih (by omega) (by omega)
        · rfl

end Sys2Proof.Machine
end

