-- ==== Sys2Proof/Laws/Frequency.lean ====
section
/-! SUPPORT. What counting can do to the state (spec/41_frequency.md R110, R113). -/

namespace Sys2Proof.Machine

/-- One more count as a number: it stops at the maximum (R110). -/
theorem countUp_toNat (c : Word) : (countUp c).toNat = min (c.toNat + 1) 0xFFFFFFFF := by
  have := c.isLt
  unfold countUp
  split
  · subst c
    rfl
  · rename_i h
    have : c.toNat ≠ 0xFFFFFFFF := fun e => h (BitVec.eq_of_toNat_eq e)
    have e : (1 : Word).toNat = 1 := rfl
    rw [BitVec.toNat_add, e]
    omega

theorem saturated_iff (c : Word) : saturated c = true ↔ c.toNat = 0xFFFFFFFF := by
  rw [saturated, decide_eq_true_iff]
  exact ⟨fun h => h ▸ rfl, fun h => BitVec.eq_of_toNat_eq h⟩

/-- `Inc` counts its symbol and no other (R110). -/
theorem inc_freq_same (x : Symbol) (s : State) :
    tableAt (inc x s).freq x = countUp (tableAt s.freq x) := tableAt_set_same _ _ _

theorem inc_freq_ne {x y : Symbol} (s : State) (h : y ≠ x) : tableAt (inc x s).freq y = tableAt s.freq y :=
  tableAt_set_ne _ _ h

@[simp] theorem inc_ftotal (x : Symbol) (s : State) : (inc x s).ftotal = countUp s.ftotal := rfl

@[simp] theorem inc_fovf (x : Symbol) (s : State) :
    (inc x s).fovf = (s.fovf || saturated (tableAt s.freq x) || saturated s.ftotal) := rfl

/-- Counting a range changes FREQ, FTOTAL and FOVF only (R113). -/
theorem incRange_frame (n k : Nat) (s : State) :
    ∃ f c o, incRange n k s = s.setCounts f c o := by
  induction n generalizing k s with
  | zero => exact ⟨s.freq, s.ftotal, s.fovf, rfl⟩
  | succ n ih =>
    obtain ⟨f, c, o, h⟩ := ih (k + 1) (inc (s.ibufByte k) s)
    exact ⟨f, c, o, h⟩

end Sys2Proof.Machine
end

