-- ==== Sys2Proof/Laws/PerInstr.lean ====
section
/-! SUPPORT. The family TableRow: the word of every command selects exactly the row of the opcode map it is listed under
(spec/30_encoding.md R88). -/

namespace Sys2Proof.Laws.TableRow

open Sys2Proof.Machine

-- One lemma at a time: their kernel checks take seconds each.
set_option Elab.async false

/-- A well-formed command's word matches the pattern of every row with the command's mnemonic, and of no other row. -/
def Statement (i : Instr) : Prop :=
  i.WellFormed → ∀ r ∈ opcodeMap, (encode i &&& r.mask = r.pattern ↔ r.mnemonic = mnemonicOf i)

theorem nop : Statement .nop := fun _ => by decide +kernel
theorem clrerr : Statement .clrerr := fun _ => by decide +kernel
theorem fclr : Statement .fclr := fun _ => by decide +kernel
theorem facc (sym : Symbol) : Statement (.facc sym) := fun _ => by revert sym; decide +kernel
theorem fscan : Statement .fscan := fun _ => by decide +kernel
theorem tbuild : Statement .tbuild := fun _ => by decide +kernel
theorem bwreset : Statement .bwreset := fun _ => by decide +kernel

/-- The bits a PUTBITS word fixes (R84, R88). -/
theorem putbits_fixed (nb : BitVec 5) (val : BitVec 16) :
    Sys2Proof.encode (.putbits nb val) &&& 0xFFE00000#32 = 0x31000000#32 := by
  apply BitVec.eq_of_getLsbD_eq
  intro i hi
  show (((0x31#8 ++ 0#3 ++ nb ++ val : BitVec (8 + 3 + 5 + 16))) &&& 0xFFE00000#32).getLsbD i = _
  simp only [BitVec.getLsbD_and, BitVec.getLsbD_append]
  interval_cases i <;> simp

theorem putbits (nb : BitVec 5) (val : BitVec 16) : Statement (.putbits nb val) := by
  intro _ r hr
  have h := putbits_fixed nb val
  show _ ↔ r.mnemonic = "PUTBITS"
  generalize Sys2Proof.encode (.putbits nb val) = w at h ⊢
  have key : ∀ m q : Word, m &&& 0xFF000000#32 = 0xFF000000#32 → q &&& 0xFF000000#32 ≠ 0x31000000#32 →
      w &&& m ≠ q := by
    intro m q hm hq e
    refine hq ?_
    rw [← e, BitVec.and_assoc, hm]
    have := congrArg (· &&& 0xFF000000#32) h
    simpa [BitVec.and_assoc] using this
  fin_cases hr <;> first
    | exact iff_of_true h rfl
    | exact iff_of_false (key _ _ (by decide) (by decide)) (by decide)

theorem flush : Statement .flush := fun _ => by decide +kernel
theorem brreset : Statement .brreset := fun _ => by decide +kernel
theorem getbits (nb : BitVec 5) : Statement (.getbits nb) := by revert nb; unfold Statement; decide +kernel
theorem encsym (sym : Symbol) : Statement (.encsym sym) := fun _ => by revert sym; decide +kernel
theorem encode : Statement .encode := fun _ => by decide +kernel
theorem decsym : Statement .decsym := fun _ => by decide +kernel
theorem decode : Statement .decode := fun _ => by decide +kernel
theorem decall : Statement .decall := fun _ => by decide +kernel

end Sys2Proof.Laws.TableRow
end

