-- ==== Sys2Proof/Laws/Step.lean ====
section
/-! SUPPORT. Everything a host access, an engine step and a step of the whole can do. -/

namespace Sys2Proof.Machine

/-- Everything a host access can do (R61-R65): a bus error or a read, both without effect, or a write. -/
theorem hostAccess_cases (p : Params) (a : Access) (s : State) :
    (acceptedTarget p s a = none ∧ hostAccess p a s = (.busError, s))
    ∨ ∃ t, acceptedTarget p s a = some t
      ∧ ((a.kind = .read ∧ hostAccess p a s = (.readData (readTarget p s t), s))
        ∨ (a.kind = .write ∧ hostAccess p a s = (.writeDone, writeTarget a.data s t))) := by
  unfold hostAccess
  cases h : acceptedTarget p s a with
  | none => exact .inl ⟨rfl, rfl⟩
  | some t =>
    refine .inr ⟨t, rfl, ?_⟩
    cases hk : a.kind with
    | read => exact .inl ⟨rfl, rfl⟩
    | write => exact .inr ⟨rfl, rfl⟩

/-- When an access reaches a target (R61, R62, R64). -/
theorem acceptedTarget_eq_some {p : Params} {s : State} {a : Access} {t : Target} :
    acceptedTarget p s a = some t ↔ a.size = 4 ∧ a.offset.toNat % 4 = 0 ∧ targetAt p a.offset.toNat = some t
      ∧ (s.busy && !allowedWhileBusy a.kind t) = false := by
  unfold acceptedTarget
  split
  · simp_all
  · split
    · simp_all
    · cases h : targetAt p a.offset.toNat with
      | none => simp
      | some u =>
        by_cases hb : (s.busy && !allowedWhileBusy a.kind u) = true
        · simp only [hb, if_true]
          constructor
          · intro h
            cases h
          · rintro ⟨-, -, h, hc⟩
            cases h
            rw [hb] at hc
            cases hc
        · simp_all only [Bool.not_eq_true, Bool.false_eq_true, if_false, Option.some.injEq, true_and, Decidable.not_not]
          constructor
          · rintro rfl
            exact ⟨rfl, hb⟩
          · exact And.left

/-- Everything an engine step can do (R180): refuse, run a decoded command, or fail with BadCommand. -/
theorem engineStep_cases (s : State) :
    (s.errCode ≠ .noError ∧ s.pending ≠ clrerrWord ∧ engineStep s = .next s.complete)
    ∨ ((s.errCode = .noError ∨ s.pending = clrerrWord) ∧
      ((∃ i, decode s.pending = .ok i ∧ engineStep s = exec i s)
      ∨ ∃ e, decode s.pending = .error e ∧
          engineStep s = .next { s with errCode := .badCommand, errInfo := s.pending, busy := false, done := true })) := by
  unfold engineStep
  split
  · rename_i h
    exact .inl ⟨h.1, h.2, rfl⟩
  · rename_i h
    refine .inr ⟨?_, ?_⟩
    · by_contra hc
      exact h ⟨fun e => hc (.inl e), fun e => hc (.inr e)⟩
    · cases hd : decode s.pending with
      | ok i => exact .inl ⟨i, rfl, rfl⟩
      | error e =>
        refine .inr ⟨e, rfl, ?_⟩
        show Host.Outcome.next _ = _
        rw [runCommand_raised (rule := badCommandRule s.pending) rfl, takeError_of_optr rfl]
        rfl

/-- Everything a step can do: the engine's turn, a host access, or a reset, taken off the script (R7). -/
theorem step_cases (s : State) :
    (∃ rest, ((s.inputs = [] ∧ rest = []) ∨ s.inputs = .engineTurn :: rest)
      ∧ step s = if s.busy then engineStep { s with inputs := rest } else .next { s with inputs := rest })
    ∨ (∃ a rest, s.inputs = .access a :: rest ∧ step s = hostTurn a { s with inputs := rest })
    ∨ ∃ rest, s.inputs = .reset :: rest ∧ step s = .next (resetFrom { s with inputs := rest }) := by
  unfold step advance
  cases h : s.inputs with
  | nil =>
    refine .inl ⟨[], .inl ⟨rfl, rfl⟩, ?_⟩
    have : ({ s with inputs := [] } : State) = s := by
      rw [← h]
    rw [this]
    rfl
  | cons i rest =>
    cases i with
    | access a => exact .inr (.inl ⟨a, rest, rfl, rfl⟩)
    | reset => exact .inr (.inr ⟨rest, rfl, rfl⟩)
    | engineTurn => exact .inl ⟨rest, .inr rfl, rfl⟩

end Sys2Proof.Machine
end

