-- ==== Sys2Proof/Tests/Slice0.lean ====
section
/-! SUPPORT. Tests of the model. Expected words and values are written out from spec/30_encoding.md, the examples of
spec/40_control.md to spec/45_decoder.md and the vectors of spec/95_test_vectors.md, each named in the test's comment. -/

namespace Sys2Proof.Tests

open Sys2Proof.Machine

-- One theorem at a time: their kernel checks take seconds each, and checked side by side they would fill the memory.
set_option Elab.async false

/-! ### Ill-formed commands are refused by WellFormed (R84, R85) -/

theorem test_putbits_zero_bits_ill_formed : ¬ (Instr.putbits 0#5 1#16).WellFormed := by decide
theorem test_putbits_17_bits_ill_formed : ¬ (Instr.putbits 17#5 1#16).WellFormed := by decide
theorem test_getbits_zero_bits_ill_formed : ¬ (Instr.getbits 0#5).WellFormed := by decide
theorem test_getbits_31_bits_ill_formed : ¬ (Instr.getbits 31#5).WellFormed := by decide
theorem test_bit_counts_1_and_16_well_formed :
    (Instr.putbits 1#5 0#16).WellFormed ∧ (Instr.getbits 16#5).WellFormed := by decide

/-! ### Every constructor's word, written bit by bit: OP, reserved zeros, operand fields (R82-R85, R88) -/

theorem test_decode_nop : decode 0b00000000_000000000000000000000000#32 = .ok .nop := by rfl
theorem test_decode_clrerr : decode 0b00000001_000000000000000000000000#32 = .ok .clrerr := by rfl
theorem test_decode_fclr : decode 0b00010000_000000000000000000000000#32 = .ok .fclr := by rfl
theorem test_decode_facc : decode 0b00010001_0000000000000000_01100001#32 = .ok (.facc 0x61#8) := by rfl
theorem test_decode_fscan : decode 0b00010010_000000000000000000000000#32 = .ok .fscan := by rfl
theorem test_decode_tbuild : decode 0b00100000_000000000000000000000000#32 = .ok .tbuild := by rfl
theorem test_decode_bwreset : decode 0b00110000_000000000000000000000000#32 = .ok .bwreset := by rfl
theorem test_decode_putbits :
    decode 0b00110001_000_00011_0000000000000101#32 = .ok (.putbits 3#5 5#16) := by rfl
theorem test_decode_flush : decode 0b00110010_000000000000000000000000#32 = .ok .flush := by rfl
theorem test_decode_brreset : decode 0b00111000_000000000000000000000000#32 = .ok .brreset := by rfl
theorem test_decode_getbits : decode 0b00111001_000_10000_0000000000000000#32 = .ok (.getbits 16#5) := by rfl
theorem test_decode_encsym : decode 0b01000000_0000000000000000_01110010#32 = .ok (.encsym 0x72#8) := by rfl
theorem test_decode_encode : decode 0b01000001_000000000000000000000000#32 = .ok .encode := by rfl
theorem test_decode_decsym : decode 0b01010000_000000000000000000000000#32 = .ok .decsym := by rfl
theorem test_decode_decode : decode 0b01010001_000000000000000000000000#32 = .ok .decode := by rfl
theorem test_decode_decall : decode 0b01010010_000000000000000000000000#32 = .ok .decall := by rfl

/-- V-C3, V-C4, V-C6 to V-C12: illegal words, each refused with its reason. -/
theorem test_illegal_words :
    decode 0x02000000#32 = .error .reservedOpcode ∧ decode 0x00000001#32 = .error .reservedField
    ∧ decode 0x31000001#32 = .error .badBitCount ∧ decode 0x31110000#32 = .error .badBitCount
    ∧ decode 0x31200001#32 = .error .reservedField ∧ decode 0x39030001#32 = .error .reservedField
    ∧ decode 0x39000000#32 = .error .badBitCount ∧ decode 0x11000100#32 = .error .reservedField
    ∧ decode 0xFF000000#32 = .error .reservedOpcode ∧ decode 0x53000000#32 = .error .reservedOpcode := by
  refine ⟨rfl, rfl, rfl, rfl, rfl, rfl, rfl, rfl, rfl, rfl⟩

/-- R91: `PUTBITS 3, 0b101` is 0x31030005 and `FACC 'a'` is 0x11000061. -/
theorem test_encode_examples :
    encode (.putbits 3#5 5#16) = 0x31030005#32 ∧ encode (.facc 0x61#8) = 0x11000061#32 := by decide

/-- The table's word of PUTBITS with NB = 1, and a row's word with no operand bits. -/
theorem test_decodeTableWord :
    decodeTableWord 32 0x31010000 = some (.putbits 1#5 0#16) ∧ decodeTableWord 32 0x20000000 = some .tbuild
    ∧ decodeTableWord 32 0x02000000 = none := by decide

/-! ### States the vectors start from -/

/-- The vectors' parameters: 4096-byte buffers, MAX_LEN 255 (spec/95_test_vectors.md). -/
def p4096 : Params := ⟨1023, 1023, 254⟩

/-- OBUF of 4 bytes (V-B7 to V-B10, V-D8). -/
def pSmallObuf : Params := ⟨1023, 0, 254⟩

/-- MAX_LEN 8 (V-T3, V-T4). -/
def pMaxLen8 : Params := ⟨1023, 1023, 7⟩

/-- A table of code lengths from a list of (symbol, length). -/
def lengths (l : List (Nat × Nat)) : Vector Byte 256 :=
  l.foldl (fun t e => tableSet t (BitVec.ofNat 8 e.1) (BitVec.ofNat 8 e.2)) (Vector.replicate 256 0)

/-- A table of codes from a list of (symbol, code). -/
def codes (l : List (Nat × Nat)) : Vector Code 256 :=
  l.foldl (fun t e => tableSet t (BitVec.ofNat 8 e.1) (BitVec.ofNat 255 e.2)) (Vector.replicate 256 0)

/-- Bytes from IBUF index 0 on. -/
def bytes (l : List Nat) : List Host.Cell := l.mapIdx fun k b => (k, BitVec.ofNat 8 b)

/-- The "abracadabra" table built: a `0`, b `100`, c `101`, d `110`, r `111` (R122). -/
def abra : State :=
  { State.reset with
    len := lengths [(0x61, 1), (0x62, 3), (0x63, 3), (0x64, 3), (0x72, 3)]
    code := codes [(0x61, 0), (0x62, 4), (0x63, 5), (0x64, 6), (0x72, 7)]
    tvalid := true }

/-! ### Control (R100, R101) -/

/-- V-C1: NOP after reset gives STATUS 0x22. -/
theorem test_nop_status : (runCommand nopRule State.reset).statusWord = 0x22#32 := by decide

/-- R101's example: ERRCODE 4, ERRINFO 0x362; CLRERR clears both. -/
theorem test_clrerr :
    let t := runCommand clrerrRule { State.reset with errCode := .symbolNotInTable, errInfo := 0x362 }
    t.errCode = .noError ∧ t.errInfo = 0 ∧ t.statusWord = 0x22#32 := by decide

/-- V-C3: a reserved opcode is BadCommand: STATUS 0x126, ERRINFO the word. -/
theorem test_bad_command :
    let t := runCommand (badCommandRule 0x02000000) State.reset
    t.statusWord = 0x126#32 ∧ t.errInfo = 0x02000000#32 := by decide

/-! ### Frequency accumulator (R110-R113) -/

/-- R111's example: FCLR clears a counter, FTOTAL and FOVF. -/
theorem test_fclr :
    let t := runCommand fclrRule
      { State.reset with freq := tableSet State.reset.freq 0x61 5, ftotal := 11, fovf := true }
    tableAt t.freq 0x61 = 0 ∧ t.ftotal = 0 ∧ t.fovf = false := by decide +kernel

/-- V-F1: FREQ[0x41] = 2, FTOTAL = 7, then FACC 0x41. -/
theorem test_facc :
    let t := runCommand (faccRule 0x41)
      { State.reset with freq := tableSet State.reset.freq 0x41 2, ftotal := 7 }
    tableAt t.freq 0x41 = 3 ∧ t.ftotal = 8 ∧ t.fovf = false := by decide +kernel

/-- V-F7: a saturated counter stays and sets FOVF while FTOTAL still counts. -/
theorem test_facc_saturates :
    let t := runCommand (faccRule 0x41)
      { State.reset with freq := tableSet State.reset.freq 0x41 0xFFFFFFFF, ftotal := 0xFFFFFFFE }
    tableAt t.freq 0x41 = 0xFFFFFFFF#32 ∧ t.ftotal = 0xFFFFFFFF#32 ∧ t.fovf = true := by decide +kernel

/-- V-F2: FSCAN of "abracadabra". -/
theorem test_fscan :
    let t := runCommand (fscanRule p4096)
      { State.reset with ibuf := bytes [0x61, 0x62, 0x72, 0x61, 0x63, 0x61, 0x64, 0x61, 0x62, 0x72, 0x61], icnt := 11 }
    tableAt t.freq 0x61 = 5 ∧ tableAt t.freq 0x72 = 2 ∧ t.ftotal = 11 ∧ t.fdistWord = 5 := by decide +kernel

/-- V-F3, V-F5: the range check is exact and does not wrap. -/
theorem test_fscan_range :
    (runCommand (fscanRule p4096) { State.reset with iptr := 4095, icnt := 2 }).statusWord = 0x726#32
    ∧ (runCommand (fscanRule p4096) { State.reset with iptr := 0xFFFFFFFF, icnt := 0xFFFFFFFF }).statusWord
        = 0x726#32 := by decide

/-! ### Code table (R120-R122) -/

/-- V-T1: lengths a 2, b 2, c 2, d 3, e 4, f 4. -/
theorem test_tbuild :
    let t := runCommand (tbuildRule p4096)
      { State.reset with len := lengths [(0x61, 2), (0x62, 2), (0x63, 2), (0x64, 3), (0x65, 4), (0x66, 4)] }
    t.tvalid = true ∧ codeOf t.code 0x61 = 0 ∧ codeOf t.code 0x63 = 2 ∧ codeOf t.code 0x64 = 6
      ∧ codeOf t.code 0x65 = 14 ∧ codeOf t.code 0x66 = 15 := by decide +kernel

/-- V-T2 and V-T4: the Kraft sum is exceeded; the length check comes first and names the lowest symbol. -/
theorem test_tbuild_invalid :
    (runCommand (tbuildRule p4096) { State.reset with len := lengths [(1, 1), (2, 1), (3, 1)] }).errInfo
        = 0x00010000#32
    ∧ (runCommand (tbuildRule pMaxLen8)
        { State.reset with len := lengths [(0x20, 9), (0x30, 12), (1, 1), (2, 1), (3, 1)] }).errInfo
        = 0x00020020#32 := by decide +kernel

/-! ### Bit writer and reader (R130-R139) -/

/-- V-B1, V-B2: PUTBITS 3, 0b101 and then PUTBITS 8, 0xFF. -/
theorem test_putbits :
    let t := runCommand (putbitsRule p4096 8 0xFF) (runCommand (putbitsRule p4096 3 5) State.reset)
    t.obufByte 0 = 0xBF#8 ∧ t.optr = 1 ∧ t.bwstateWord = 0x307#32 := by decide

/-- V-B8: the eighth bit with OBUF full overflows, and the writer is rolled back. -/
theorem test_putbits_overflow :
    let t := runCommand (putbitsRule pSmallObuf 1 1) { State.reset with optr := 4, bwacc := 0x7F, bwcnt := 7 }
    t.statusWord = 0x826#32 ∧ t.bwstateWord = 0x77F#32 ∧ t.optr = 4 := by decide

/-- V-B3: FLUSH of `111` at OPTR 1. -/
theorem test_flush :
    let t := runCommand (flushRule p4096) { State.reset with optr := 1, bwacc := 7, bwcnt := 3 }
    t.obufByte 1 = 0xE0#8 ∧ t.optr = 2 ∧ t.bwstateWord = 0x00050000#32 := by decide

/-- V-B4: a second FLUSH writes nothing and loses the pad count. -/
theorem test_flush_empty :
    let t := runCommand (flushRule p4096) { State.reset with optr := 2, pad := 5 }
    t.optr = 2 ∧ t.bwstateWord = 0 ∧ t.obuf = [] := by decide

/-- V-B11: BWRESET. -/
theorem test_bwreset :
    let t := runCommand bwresetRule { State.reset with optr := 3, bwacc := 3, bwcnt := 5, pad := 1 }
    t.optr = 0 ∧ t.bwstateWord = 0 := by decide

/-- V-B19: BRRESET. -/
theorem test_brreset : (runCommand brresetRule { State.reset with brpos := 20 }).brpos = 0 := by decide

/-- V-B18: GETBITS 16 across two byte boundaries. -/
theorem test_getbits :
    let t := runCommand (getbitsRule p4096 16)
      { State.reset with ibuf := bytes [0x12, 0x34, 0x56], brlen := 3, brpos := 4 }
    t.rdata = 0x2345#32 ∧ t.brpos = 20 := by decide

/-- V-B15, V-B17: the pad bits are never returned; BRLEN beyond IBUF. -/
theorem test_getbits_errors :
    (runCommand (getbitsRule p4096 4)
        { State.reset with ibuf := bytes [0xB5], brlen := 1, brpad := 5 }).statusWord = 0x306#32
    ∧ (runCommand (getbitsRule p4096 1) { State.reset with brlen := 4097 }).statusWord = 0x706#32 := by decide

/-! ### Encoder (R150, R151) -/

/-- V-E2: ENCSYM 'r'. -/
theorem test_encsym : (runCommand (encsymRule p4096 0x72) abra).bwstateWord = 0x307#32 := by decide +kernel

/-- V-E3: ENCSYM 'z' has no code. -/
theorem test_encsym_absent :
    let t := runCommand (encsymRule p4096 0x7A) { abra with bwacc := 7, bwcnt := 3 }
    t.errInfo = 0x7A#32 ∧ t.bwstateWord = 0x307#32 ∧ t.statusWord = 0x42E#32 := by decide +kernel

/-- V-E8: ENCODE "abracadabra". -/
theorem test_encode :
    let t := runCommand (encodeRule p4096)
      { abra with ibuf := bytes [0x61, 0x62, 0x72, 0x61, 0x63, 0x61, 0x64, 0x61, 0x62, 0x72, 0x61], icnt := 11 }
    t.obufByte 0 = 0x4E#8 ∧ t.obufByte 1 = 0xAC#8 ∧ t.optr = 2 ∧ t.bwstateWord = 0x74E#32 := by decide +kernel

/-- V-E4: ENCODE "abrz" fails at k = 3 and is rolled back. -/
theorem test_encode_absent :
    let t := runCommand (encodeRule p4096) { abra with ibuf := bytes [0x61, 0x62, 0x72, 0x7A], icnt := 4 }
    t.errInfo = 0x37A#32 ∧ t.bwstateWord = 0 ∧ t.optr = 0 := by decide +kernel

/-! ### Decoder (R160-R163) -/

/-- V-D10: DECSYM of `100` at bit 1. -/
theorem test_decsym :
    let t := runCommand (decsymRule p4096) { abra with ibuf := bytes [0x4E], brlen := 1, brpos := 1 }
    t.rdata = 0x62#32 ∧ t.brpos = 4 := by decide +kernel

/-- V-D12: a table without a present symbol: InvalidCode at bit 0, STATUS 0x50E. -/
theorem test_decsym_invalid :
    let t := runCommand (decsymRule p4096) { State.reset with tvalid := true, ibuf := bytes [0], brlen := 1 }
    t.statusWord = 0x50E#32 ∧ t.errInfo = 0 := by decide +kernel

/-- DECODE of the first two symbols of V-D1's payload, `0` and `100`, of the table of R122. -/
theorem test_decode_command :
    let t := runCommand (decodeRule p4096) { abra with ibuf := bytes [0x4E], brlen := 1, dcnt := 2 }
    t.obufByte 0 = 0x61#8 ∧ t.obufByte 1 = 0x62#8 ∧ t.brpos = 4 ∧ t.rdata = 2 := by decide +kernel

/-- R162: the stream `01` ends inside a code with two symbols due: TruncatedPayload(1), and the first is rolled back. -/
theorem test_decode_truncated :
    let t := runCommand (decodeRule p4096) { abra with ibuf := bytes [0x4E], brlen := 1, brpad := 6, dcnt := 2 }
    t.statusWord = 0x30E#32 ∧ t.errInfo = 1 ∧ t.optr = 0 ∧ t.brpos = 0 := by decide +kernel

/-- R163: DECALL of the two bits `00` is the two symbols `a`. -/
theorem test_decall :
    let t := runCommand (decallRule p4096) { abra with ibuf := bytes [0x3F], brlen := 1, brpad := 6 }
    t.rdata = 2 ∧ t.brpos = 2 ∧ t.obufByte 1 = 0x61#8 ∧ t.errCode = .noError := by decide +kernel

/-- V-D14: no table. -/
theorem test_decall_no_table : (runCommand (decallRule p4096) State.reset).statusWord = 0x626#32 := by decide

/-! ### Bus, reset and the step -/

/-- V-M1, V-M2, V-M3, V-M4, V-M10. -/
theorem test_bus_reads :
    (hostAccess p4096 (readAt 0x000) State.reset).1 = .readData 0x48554646
    ∧ (hostAccess p4096 (readAt 0x004) State.reset).1 = .readData 0x1000
    ∧ (hostAccess p4096 (readAt 0x00C) State.reset).1 = .readData 0xFF
    ∧ (hostAccess p4096 ⟨.read, 0, 1, 0⟩ State.reset).1 = .busError
    ∧ (hostAccess p4096 (readAt 0x002) State.reset).1 = .busError
    ∧ (hostAccess p4096 (readAt 0x018) State.reset).1 = .readData 0 := by decide

/-- V-M5, V-M6: unmapped offsets, and the last IBUF word. -/
theorem test_bus_unmapped :
    (hostAccess p4096 (readAt 0x070) State.reset).1 = .busError
    ∧ (hostAccess p4096 (readAt 0x900) State.reset).1 = .busError
    ∧ (hostAccess p4096 (readAt 0x30000) State.reset).1 = .busError
    ∧ (hostAccess p4096 (readAt 0x11000) State.reset).1 = .busError
    ∧ (hostAccess p4096 (writeAt 0x10FFC 0) State.reset).1 = .writeDone := by decide

/-- V-M8, V-M9, V-M12. -/
theorem test_bus_writes :
    (hostAccess p4096 (readAt 0x010) (hostAccess p4096 (writeAt 0x010 0xFFFFFFFF) State.reset).2).1 = .readData 1
    ∧ (hostAccess p4096 (readAt 0x03C) (hostAccess p4096 (writeAt 0x03C 0x0D) State.reset).2).1 = .readData 5
    ∧ lenOf (hostAccess p4096 (writeAt 0x860 0x03030100) abra).2.len 0x62 = 3
    ∧ (hostAccess p4096 (writeAt 0x860 0x03030100) abra).2.tvalid = false := by decide +kernel

/-- V-M13: after a CMD write STATUS reads BUSY; RDATA and CMD bus-error. -/
theorem test_bus_busy :
    let s := (hostAccess p4096 (writeAt 0x018 0) State.reset).2
    (hostAccess p4096 (readAt 0x014) s).1 = .readData 0x21 ∧ (hostAccess p4096 (readAt 0x020) s).1 = .busError
    ∧ (hostAccess p4096 (writeAt 0x018 1) s).1 = .busError
    ∧ (hostAccess p4096 (writeAt 0x018 1) s).2.pending = 0 := by decide

/-- V-R1, R31: STATUS reads 0x20 after reset. -/
theorem test_reset_status : State.reset.statusWord = 0x20#32 := by decide

/-- V-R2: a reset abandons a pending command. -/
theorem test_reset_while_busy :
    (match step { State.reset with busy := true, pending := 0x51000000, inputs := [.reset] } with
      | .next t => !t.busy && !t.done && decide (t.epoch = 1)
      | _ => false) = true := by decide

/-- A placed command runs at the very next step: PUTBITS 3, 0b101. -/
theorem test_withFetchWord :
    (match step (State.reset.withFetchWord 32 0x31030005) with
      | .next t => decide (t.bwstateWord = 0x305#32) && t.done && !t.busy
      | _ => false) = true := by decide

/-- It also runs where an error is recorded (log entry 8). -/
theorem test_withFetchWord_after_error :
    (match step ({ State.reset with errCode := .rangeError, errInfo := 1 }.withFetchWord 32 0x11000041) with
      | .next t => decide (tableAt t.freq 0x41 = 1#32)
      | _ => false) = true := by decide +kernel

end Sys2Proof.Tests
end

