-- ==== Sys2Proof/Tests/Witnesses.lean ====
section
/-! SUPPORT. For every obligation with hypotheses, a concrete state and operands that meet all of them together, one
theorem per obligation, with its clauses' boundary values. The parameters have no body, so the states hold under all of
their values. -/

namespace Sys2Proof.Tests

open Sys2Proof.Machine

-- One theorem at a time: their kernel checks take seconds each, and checked side by side they would fill the memory.
set_option Elab.async false

/-! ### States -/

/-- Command word `w` pending, and the engine's turn written out in the script. -/
def pendingTurn (w : Word) : State := { State.reset with busy := true, pending := w, inputs := [.engineTurn, .reset] }

/-- Command word `w` pending, and the script at its end. -/
def pendingAtEnd (w : Word) : State := { State.reset with busy := true, pending := w }

/-- The same two with an error recorded. -/
def errorTurn (w : Word) : State := { pendingTurn w with errCode := .rangeError, errInfo := 1 }
def errorAtEnd (w : Word) : State := { pendingAtEnd w with errCode := .rangeError, errInfo := 1 }

/-- A built table without a present symbol. -/
def bare : State := { State.reset with tvalid := true, ibuf := [(0, 1)], icnt := 1, brlen := 1 }

/-- A built table with two present symbols: symbol 0 has the code `0` and symbol 1 the code `1`. IBUF[0] is 1, as a
payload seven zero bits and a one. -/
def two : State :=
  { State.reset with
    len := tableSet (tableSet (Vector.replicate 256 0) 0 1) 1 1
    code := tableSet (Vector.replicate 256 0) 1 1
    tvalid := true
    ibuf := [(0, 1)]
    icnt := 1
    brlen := 1 }

/-- OBUF full and seven bits pending: the next bit does not fit. -/
def fullWriter (s : State) : State :=
  { s with optr := BitVec.ofNat 32 Config.params.obufBytes, bwacc := 0x7F, bwcnt := 7 }

/-! ### The two tables are valid under every MAX_LEN -/

theorem sum_map_ite {α : Type} (l : List α) (P : α → Prop) [DecidablePred P] (c : Nat) :
    (l.map fun x => if P x then 0 else c).sum = l.countP (fun x => decide (¬ P x)) * c := by
  induction l with
  | nil => simp
  | cons x l ih => by_cases h : P x <;> simp [h, ih, Nat.add_mul, Nat.add_comm]

/-- A table of lengths 0 and 1 has one term of `2^(MAX_LEN-1)` per present symbol. -/
theorem kraftUnits_of_le_one (p : Params) (t : Vector Byte 256) (h : ∀ x : Symbol, lenOf t x ≤ 1) :
    kraftUnits p t = symbols.countP (fun x => decide (¬ lenOf t x = 0)) * 2 ^ (p.maxLen - 1) := by
  unfold kraftUnits
  rw [← sum_map_ite]
  congr 1
  refine List.map_congr_left fun x _ => ?_
  have := h x
  by_cases h0 : lenOf t x = 0
  · simp [h0]
  · have : lenOf t x = 1 := by omega
    simp [this]

theorem validTable_of_le_one (p : Params) (t : Vector Byte 256) (h : ∀ x : Symbol, lenOf t x ≤ 1)
    (hc : symbols.countP (fun x => decide (¬ lenOf t x = 0)) ≤ 2) : ValidTable p t := by
  have hm : p.maxLen = p.maxLenMinusOne.val + 1 := rfl
  refine ⟨fun x => (h x).trans (by omega), ?_⟩
  rw [kraftUnits_of_le_one p t h, hm, Nat.add_sub_cancel, Nat.pow_succ, Nat.mul_comm (2 ^ _)]
  exact Nat.mul_le_mul_right _ hc

theorem two_lengths : ∀ x : Symbol, lenOf two.len x ≤ 1 := by decide +kernel
theorem two_valid (p : Params) : ValidTable p two.len := validTable_of_le_one p _ two_lengths (by decide +kernel)
theorem two_codes : two.code = canonicalCodes two.len := by decide +kernel
theorem two_table (p : Params) : TableInv p two := fun _ => ⟨two_valid p, two_codes⟩

theorem ibufBytes_ge (p : Params) : 4 ≤ p.ibufBytes := by unfold Params.ibufBytes; omega
theorem obufBytes_ge (p : Params) : 4 ≤ p.obufBytes := by unfold Params.obufBytes; omega

theorem fullWriter_optr (s : State) : (fullWriter s).optr.toNat = Config.params.obufBytes := by
  have := Config.params.obufBytes_le
  show (BitVec.ofNat 32 Config.params.obufBytes).toNat = _
  rw [BitVec.toNat_ofNat]
  omega

theorem fullWriter_inv (s : State) : WriterInv Config.params (fullWriter s) :=
  ⟨(fullWriter_optr s).le, by show (7#4).toNat ≤ 7; decide, by show (0x7F#8).toNat < 2 ^ (7#4).toNat; decide⟩

/-- In the full writer not one more bit fits. -/
theorem fullWriter_full (s : State) (n : Nat) (h : 1 ≤ n) : ¬ RoomFor Config.params (fullWriter s) n := by
  have := fullWriter_optr s
  have e : (fullWriter s).bwcnt.toNat = 7 := rfl
  simp only [RoomFor, e]
  omega

/-! ### The table without symbols -/

theorem bare_len (x : Symbol) : lenOf bare.len x = 0 := by
  show lenOf (Vector.replicate 256 0) x = 0
  simp [lenOf, tableAt]

theorem bare_table (p : Params) : TableInv p bare := by
  refine fun _ => ⟨validTable_of_le_one p _ (fun x => by simp [bare_len]) (by simp [bare_len]), ?_⟩
  have h : presentSymbols bare.len = [] := by simp [presentSymbols, bare_len]
  rw [canonicalCodes, canonicalOrder, h]
  rfl

/-! ### Encoding -/

theorem witness_DecodeOfEncode :
    (Instr.putbits 1#5 0xFFFF#16).WellFormed ∧ (Instr.putbits 16#5 0#16).WellFormed ∧ (Instr.getbits 1#5).WellFormed
    ∧ (Instr.getbits 16#5).WellFormed ∧ Instr.nop.WellFormed := by decide

theorem witness_EncodeOfDecode :
    decode 0x31100005#32 = .ok (.putbits 16#5 5#16) ∧ decode 0x39010000#32 = .ok (.getbits 1#5) := ⟨rfl, rfl⟩

theorem witness_DecodingFollowsOpcodeMap :
    ⟨"PUTBITS", 0x31000000#32, 0xFFE00000#32, true⟩ ∈ opcodeMap
    ∧ OpcodeRow.selects ⟨"PUTBITS", 0x31000000#32, 0xFFE00000#32, true⟩ 0x3110FFFF#32 := by decide

/-! ### The step -/

theorem witness_StepRunsDecodedCommand :
    EngineTurn (pendingTurn 0x31030005) [.reset] ∧ EngineTurn (pendingAtEnd 0x31030005) []
    ∧ (pendingTurn 0x31030005).errCode = .noError
    ∧ decode (pendingTurn 0x31030005).pending = .ok (.putbits 3#5 5#16)
    ∧ EngineTurn (errorTurn 0x01000000) [.reset] ∧ (errorTurn 0x01000000).pending = 0x01000000#32
    ∧ decode (errorTurn 0x01000000).pending = .ok .clrerr := by decide +kernel

theorem witness_StepTakesTheFirstScriptEntry :
    (let s : State := { pendingAtEnd 0 with inputs := [.access (readAt 0x014), .reset] };
      s.inputs = .access (readAt 0x014) :: [.reset])
    ∧ (let s : State := { pendingAtEnd 0 with inputs := [.reset, .engineTurn] }; s.inputs = .reset :: [.engineTurn])
    ∧ EngineTurn (pendingTurn 0x12000000) [.reset] ∧ EngineTurn (errorAtEnd 0x12000000) [] := by decide +kernel

/-- A reserved opcode, a reserved operand bit, and NB = 17: none selects a row; the rest holds of every word. -/
theorem witness_IllegalWordFailsWithBadCommand :
    (∀ w, (pendingTurn w).busy = true ∧ (pendingTurn w).errCode = .noError ∧ (pendingTurn w).pending = w
      ∧ (errorAtEnd w).busy = true ∧ (errorAtEnd w).errCode ≠ .noError ∧ (errorAtEnd w).pending = w)
    ∧ (∀ r ∈ opcodeMap, ¬ r.selects 0x02000000#32) ∧ (∀ r ∈ opcodeMap, ¬ r.selects 0x00000001#32)
    ∧ ∀ r ∈ opcodeMap, ¬ r.selects 0x31110000#32 :=
  ⟨fun _ => ⟨rfl, rfl, rfl, rfl, nofun, rfl⟩, by decide, by decide, by decide⟩

theorem witness_RefusedCommandChangesOnlyBusyAndDone :
    (∀ w, EngineTurn (errorTurn w) [.reset] ∧ (errorTurn w).errCode ≠ .noError ∧ (errorTurn w).pending = w)
    ∧ 0x01000001#32 ≠ 0x01000000#32 ∧ 0x00000000#32 ≠ 0x01000000#32 ∧ 0x52000000#32 ≠ 0x01000000#32 :=
  ⟨fun _ => ⟨⟨rfl, .inr rfl⟩, nofun, rfl⟩, by decide, by decide, by decide⟩

theorem witness_EveryEngineStepCompletes :
    EngineTurn (pendingTurn 0x12000000) [.reset] ∧ EngineTurn (errorAtEnd 0x12000000) [] := by decide +kernel

theorem witness_InterruptFallsAndIdleKeepsState :
    (let s : State := { State.reset with ie := true, done := true, inputs := [.access (writeAt 0x018 7)] };
      s.busy = false ∧ s.inputs = .access (writeAt 0x018 7) :: [])
    ∧ (let s : State := { State.reset with ie := true, done := true, inputs := [.access (writeAt 0x014 2)] };
        (2#32).getLsbD 1 = true ∧ s.inputs = .access (writeAt 0x014 2) :: [])
    ∧ (State.reset.busy = false ∧ State.reset.inputs = []) := by decide

theorem witness_ResetValues :
    (∃ t, t = State.reset) ∧ ∃ t, ∃ s, t = resetFrom s ∧ s = pendingAtEnd 0x51000000 :=
  ⟨⟨_, rfl⟩, _, _, rfl, rfl⟩

/-! ### Host accesses -/

theorem witness_CmdWriteIsAccepted : ({ State.reset with errCode := .badCommand } : State).busy = false := rfl

/-- Each cause of a bus error at its boundary values, the last unmapped index of the buffers for every size included. -/
theorem witness_BusErrorsExactlyAsListed_errors :
    (∀ o ∈ [0x070, 0x3FC, 0x900, 0xFFFC, 0x30000, 0x3FFFC, 0x001, 0x002, 0x003],
      BusErrors Config.params State.reset (readAt o) ∧ BusErrors Config.params State.reset (writeAt o 0))
    ∧ BusErrors Config.params State.reset ⟨.read, 0x000, 1, 0⟩
    ∧ BusErrors Config.params State.reset ⟨.write, 0x024, 8, 0⟩
    ∧ (∀ o ∈ [0x018, 0x01C, 0x020, 0x06C, 0x400, 0x800, 0x10000, 0x20000],
      BusErrors Config.params (pendingAtEnd 0) (readAt o))
    ∧ ∀ o ∈ [0x000, 0x00C, 0x018, 0x024, 0x10000],
      BusErrors Config.params (pendingAtEnd 0) (writeAt o 0) := by
  have e : ∀ (k : AccessKind) (o : Nat) (d : Word), o < 2 ^ 18 →
      (⟨k, BitVec.ofNat 18 o, 4, d⟩ : Access).offset.toNat = o := fun k o d h => by
    show (BitVec.ofNat 18 o).toNat = o
    rw [BitVec.toNat_ofNat]
    exact Nat.mod_eq_of_lt h
  refine ⟨?_, .inl (by decide), .inl (by decide), ?_, ?_⟩
  · intro o ho
    have hu : o % 4 ≠ 0 ∨ (0x070 ≤ o ∧ o ≤ 0x3FF) ∨ (0x900 ≤ o ∧ o ≤ 0xFFFF) ∨ (0x30000 ≤ o ∧ o ≤ 0x3FFFF) := by
      revert o; decide
    have hl : o < 2 ^ 18 := by revert o; decide
    have key : ∀ a : Access, a.offset.toNat = o → BusErrors Config.params State.reset a := by
      rintro a rfl
      rcases hu with h | h | h | h
      · exact .inr (.inl h)
      · exact .inr (.inr (.inl (.inl h)))
      · exact .inr (.inr (.inl (.inr (.inl h))))
      · exact .inr (.inr (.inl (.inr (.inr (.inl h)))))
    exact ⟨key _ (e _ _ _ hl), key _ (e _ _ _ hl)⟩
  · intro o ho
    exact .inr (.inr (.inr ⟨rfl, by revert o; decide⟩))
  · intro o ho
    exact .inr (.inr (.inr ⟨rfl, by revert o; decide⟩))

/-- The first word beyond each buffer, for a size at which it lies inside the window's range. -/
theorem witness_Unmapped_beyond_buffers :
    BusErrors ⟨0, 1, 0⟩ State.reset (readAt 0x10004) ∧ ¬ BusErrors ⟨0, 1, 0⟩ State.reset (readAt 0x10000)
    ∧ BusErrors ⟨0, 1, 0⟩ State.reset (readAt 0x20008) ∧ ¬ BusErrors ⟨0, 1, 0⟩ State.reset (readAt 0x20004) := by
  have hn : ∀ a : Access, a.size = 4 → a.offset.toNat % 4 = 0 → ¬ Unmapped ⟨0, 1, 0⟩ a.offset.toNat →
      ¬ BusErrors ⟨0, 1, 0⟩ State.reset a := by
    rintro a h1 h2 h3 (h | h | h | h)
    · exact h h1
    · exact h h2
    · exact h3 h
    · exact absurd h.1 nofun
  exact ⟨.inr (.inr (.inl (.inr (.inr (.inr (.inl (by decide))))))), hn _ rfl (by decide) (by decide),
    .inr (.inr (.inl (.inr (.inr (.inr (.inr (by decide))))))), hn _ rfl (by decide) (by decide)⟩

/-- Accesses that do not bus-error, at the boundaries of the mapped ranges, idle and while BUSY = 1. -/
theorem witness_BusErrorsExactlyAsListed_accepted :
    (∀ o ∈ [0x000, 0x06C, 0x400, 0x7FC, 0x800, 0x8FC], ¬ BusErrors Config.params State.reset (readAt o))
    ∧ (∀ o ∈ [0x000, 0x014], ¬ BusErrors Config.params (pendingAtEnd 0) (readAt o))
    ∧ (∀ o ∈ [0x010, 0x014], ¬ BusErrors Config.params (pendingAtEnd 0) (writeAt o 0))
    ∧ ¬ BusErrors Config.params State.reset (readAt 0x10000)
    ∧ ¬ BusErrors Config.params State.reset (writeAt 0x20000 0) := by
  have hi := ibufBytes_ge Config.params
  have ho := obufBytes_ge Config.params
  have key : ∀ (a : Access) (s : State), a.size = 4 → a.offset.toNat % 4 = 0 →
      (a.offset.toNat < 0x070 ∨ (0x400 ≤ a.offset.toNat ∧ a.offset.toNat < 0x900) ∨ a.offset.toNat = 0x10000
        ∨ a.offset.toNat = 0x20000) → (s.busy = true → BusyAccess a) → ¬ BusErrors Config.params s a := by
    rintro a s h1 h2 h3 h4 (h | h | h | h)
    · exact h h1
    · exact h h2
    · simp only [Unmapped] at h
      omega
    · exact h.2 (h4 h.1)
  refine ⟨fun o h => ?_, fun o h => ?_, fun o h => ?_, ?_, ?_⟩
  · exact key _ _ rfl (by revert o; decide) (by revert o; decide) (fun h => by cases h)
  · exact key _ _ rfl (by revert o; decide) (by revert o; decide) (fun _ => by revert o; decide)
  · exact key _ _ rfl (by revert o; decide) (by revert o; decide) (fun _ => by revert o; decide)
  · exact key _ _ rfl (by decide) (by decide) (fun h => by cases h)
  · exact key _ _ rfl (by decide) (by decide) (fun h => by cases h)

theorem witness_ReadsHaveNoSideEffect :
    let s : State := { pendingAtEnd 0 with inputs := [.access (readAt 0x002), .reset] }
    (readAt 0x002).kind = .read ∧ s.inputs = .access (readAt 0x002) :: [.reset] := by decide

theorem witness_LentabWriteReplacesFourEntries :
    (0 < 64 ∧ two.busy = false) ∧ (63 < 64 ∧ two.busy = false) := by decide

/-- The first and the last word of each window. -/
theorem witness_WindowByteLanes :
    two.busy = false ∧ 0 < 64 ∧ 63 < 64 ∧ 4 * 0 < Config.params.ibufBytes
    ∧ 4 * Config.params.ibufWordsMinusOne.val < Config.params.ibufBytes ∧ 4 * 0 < Config.params.obufBytes
    ∧ 4 * Config.params.obufWordsMinusOne.val < Config.params.obufBytes := by
  refine ⟨rfl, by decide, by decide, ?_⟩
  simp only [Params.ibufBytes, Params.obufBytes]
  omega

theorem witness_TcodeShowsSelectedCode :
    (0 < 8 ∧ 7 < 8 ∧ ({ two with tsel := 1 } : State).busy = false ∧ ({ two with tsel := 1 } : State).tvalid = true)
    ∧ (State.reset.busy = false ∧ State.reset.tvalid = false)
    ∧ TableInv Config.params { two with tsel := 2 } ∧ lenOf ({ two with tsel := 2 } : State).len 2 = 0 :=
  ⟨by decide, by decide, two_table _, by decide +kernel⟩

theorem witness_RegisterWritesStoreTheirField : State.reset.busy = false := rfl

theorem witness_RegistersReadAndReadOnlyIgnoresWrites : ({ two with rdata := 7 } : State).busy = false := rfl

/-! ### Control, frequencies and the table -/

/-- The invariant holds of more than the reset state: a built table, bytes in IBUF and OBUF, a command pending. -/
def busyTwo (w : Word) : State :=
  { two with busy := true, pending := w, optr := 1, obuf := [(0, 7)], bwacc := 3, bwcnt := 2, brpos := 8 }

theorem busyTwo_inv (w : Word) : (busyTwo w).Inv Config.params := by
  have hi := ibufBytes_ge Config.params
  have ho := obufBytes_ge Config.params
  refine ⟨⟨?_, by show (2#4).toNat ≤ 7; decide, by show (3#8).toNat < 2 ^ (2#4).toNat; decide⟩, ?_, fun _ => rfl,
    fun _ => rfl, two_table _, ?_, ?_, ?_, ?_⟩
  · show (1#32).toNat ≤ _
    exact le_trans (by decide) ho
  · show (8#32).toNat ≤ _
    have : (8#32).toNat = 8 := rfl
    omega
  · show Memory.wf [(0, 1#8)]
    decide
  · rintro c (_ | ⟨_, ⟨⟩⟩)
    exact lt_of_lt_of_le (by decide) hi
  · show Memory.wf [(0, 7#8)]
    decide
  · rintro c (_ | ⟨_, ⟨⟩⟩)
    exact lt_of_lt_of_le (by decide) ho

theorem witness_ClrerrLeavesTheErrorState :
    ((errorTurn 0x01000000).busy = true ∧ (errorTurn 0x01000000).pending = 0x01000000#32)
    ∧ ((busyTwo 0x01000000).busy = true ∧ (busyTwo 0x01000000).pending = 0x01000000#32
      ∧ (busyTwo 0x01000000).Inv Config.params ∧ (busyTwo 0x01000000).errCode = .noError)
    ∧ ((0x01000001#32).toNat / 2 ^ 24 = 1 ∧ 0x01000001#32 ≠ 0x01000000#32
      ∧ (0x01FFFFFF#32).toNat / 2 ^ 24 = 1 ∧ 0x01FFFFFF#32 ≠ 0x01000000#32 ∧ 0x52000000#32 ≠ 0x01000000#32)
    ∧ ∀ w, ((errorAtEnd w).busy = true ∧ (errorAtEnd w).errCode ≠ .noError ∧ (errorAtEnd w).pending = w)
      ∧ (pendingAtEnd w).busy = true ∧ (pendingAtEnd w).errCode = .noError ∧ (pendingAtEnd w).pending = w :=
  ⟨⟨rfl, rfl⟩, ⟨rfl, rfl, busyTwo_inv _, rfl⟩, by decide, fun _ => ⟨⟨rfl, nofun, rfl⟩, rfl, rfl, rfl⟩⟩

/-- The input range at the end of IBUF, one byte beyond it, and a sum that would wrap in 32 bits. -/
theorem witness_FscanCountsTheInputRange :
    (let s : State := { two with iptr := BitVec.ofNat 32 Config.params.ibufBytes, icnt := 0 };
      s.iptr.toNat + s.icnt.toNat = Config.params.ibufBytes)
    ∧ (let s : State := { two with iptr := BitVec.ofNat 32 Config.params.ibufBytes, icnt := 1 };
        Config.params.ibufBytes < s.iptr.toNat + s.icnt.toNat)
    ∧ (let s : State := { two with iptr := 1, icnt := 0xFFFFFFFF };
        Config.params.ibufBytes < s.iptr.toNat + s.icnt.toNat) := by
  have := Config.params.ibufBytes_le
  have e0 : (0 : Word).toNat = 0 := rfl
  have e1 : (1 : Word).toNat = 1 := rfl
  have e2 : (0xFFFFFFFF : Word).toNat = 0xFFFFFFFF := rfl
  simp only [BitVec.toNat_ofNat, e0, e1, e2]
  omega

theorem two_order : IsCanonicalOrder two.len [0, 1] := by
  unfold IsCanonicalOrder
  decide +kernel

theorem witness_TbuildAssignsCanonicalCodes :
    ValidTable Config.params two.len ∧ lenOf two.len 2 = 0 ∧ IsCanonicalOrder two.len [0, 1]
    ∧ ([0, 1] : List Symbol).head? = some 0 ∧ ([0, 1] : List Symbol)[0]? = some 0
    ∧ ([0, 1] : List Symbol)[0 + 1]? = some 1 :=
  ⟨two_valid _, by decide +kernel, two_order, rfl, rfl, rfl⟩

/-- MAX_LEN 8 and lengths 9 and 12; MAX_LEN 1 and three symbols of length 1. -/
theorem witness_TbuildRejectsInvalidTables :
    (let p : Params := ⟨0, 0, 7⟩;
      let s : State := { State.reset with len := tableSet (tableSet (Vector.replicate 256 0) 3 9) 5 12 };
      p.maxLen < lenOf s.len 3 ∧ ∀ y : Symbol, y.toNat < (3 : Symbol).toNat → lenOf s.len y ≤ p.maxLen)
    ∧ (let p : Params := ⟨0, 0, 0⟩;
        let s : State := { State.reset with len := tableSet two.len 2 1 };
        (∀ x : Symbol, lenOf s.len x ≤ p.maxLen) ∧ 2 ^ p.maxLen < kraftUnits p s.len) := by decide +kernel

theorem witness_BuiltCodesArePrefixFree :
    TableInv Config.params two ∧ two.tvalid = true ∧ present two 0 ∧ present two 1 ∧ (0 : Symbol) ≠ 1
    ∧ lenOf two.len 0 ≤ lenOf two.len 1 :=
  ⟨two_table _, rfl, by decide +kernel, by decide +kernel, by decide, by decide +kernel⟩

theorem witness_BuiltCodesAreOrderedAndDetermined :
    TableInv Config.params two ∧ two.tvalid = true ∧ present two 0 ∧ lenOf two.len 1 = lenOf two.len 0
    ∧ (∀ z : Symbol, (0 : Symbol).toNat < z.toNat → z.toNat < (1 : Symbol).toNat → lenOf two.len z ≠ lenOf two.len 0)
    ∧ IsCanonicalOrder two.len [0, 1] ∧ ([0, 1] : List Symbol).getLast? = some 1
    ∧ TableInv Config.params { two with rdata := 1 } ∧ ({ two with rdata := 1 } : State).len = two.len :=
  ⟨two_table _, rfl, by decide +kernel, by decide +kernel, by decide +kernel, two_order, rfl, two_table _, rfl⟩

theorem witness_RebuildingChangesNothing : TableInv Config.params two ∧ two.tvalid = true := ⟨two_table _, rfl⟩

/-! ### Bit writer and bit reader -/

theorem room_small (s : State) (n : Nat) (h : s.optr.toNat + (s.bwcnt.toNat + n) / 8 ≤ 4) :
    RoomFor Config.params s n := h.trans (obufBytes_ge _)

/-- NB at both ends of its range with room, also up to the last bit that fits, and the first bit that does not. -/
theorem witness_PutbitsAppendsLiteral :
    (1 ≤ (1#5).toNat ∧ (1#5).toNat ≤ 16 ∧ 1 ≤ (16#5).toNat ∧ (16#5).toNat ≤ 16)
    ∧ (WriterInv Config.params State.reset ∧ RoomFor Config.params State.reset (16#5).toNat)
    ∧ (let s : State := { fullWriter State.reset with bwacc := 0, bwcnt := 0 };
        WriterInv Config.params s ∧ RoomFor Config.params s (7#5).toNat)
    ∧ (WriterInv Config.params (fullWriter State.reset)
      ∧ ¬ RoomFor Config.params (fullWriter State.reset) (1#5).toNat) := by
  refine ⟨by decide, ⟨⟨?_, by decide, by decide⟩, room_small _ _ (by decide)⟩, ⟨⟨?_, ?_, ?_⟩, ?_⟩,
    fullWriter_inv _, fullWriter_full _ _ (by decide)⟩
  · exact Nat.zero_le _
  · exact (fullWriter_optr State.reset).le
  · show (0#4).toNat ≤ 7
    decide
  · show (0#8).toNat < 2 ^ (0#4).toNat
    decide
  · exact (fullWriter_optr State.reset).le

theorem witness_FlushPadsTheFinalByte :
    (WriterInv Config.params State.reset ∧ State.reset.bwcnt = 0)
    ∧ (let s : State := { State.reset with bwacc := 7, bwcnt := 3 };
        WriterInv Config.params s ∧ 0 < s.bwcnt.toNat ∧ s.optr.toNat < Config.params.obufBytes)
    ∧ (WriterInv Config.params (fullWriter State.reset) ∧ 0 < (fullWriter State.reset).bwcnt.toNat
      ∧ (fullWriter State.reset).optr.toNat = Config.params.obufBytes) := by
  have := obufBytes_ge Config.params
  refine ⟨⟨⟨Nat.zero_le _, by decide, by decide⟩, rfl⟩, ⟨⟨Nat.zero_le _, by decide, by decide⟩, by decide, ?_⟩,
    fullWriter_inv _, ?_, fullWriter_optr _⟩
  · exact lt_of_lt_of_le (by decide) this
  · show 0 < (7#4).toNat
    decide

theorem readerOk_small (s : State) (h : s.brlen.toNat ≤ 4) : ReaderOk Config.params s := h.trans (ibufBytes_ge _)

/-- BRLEN one byte beyond IBUF. -/
def overlong (s : State) : State := { s with brlen := BitVec.ofNat 32 (Config.params.ibufBytes + 1) }

theorem overlong_not_ok (s : State) : ¬ ReaderOk Config.params (overlong s) := by
  have := Config.params.ibufBytes_le
  show ¬ (BitVec.ofNat 32 (Config.params.ibufBytes + 1)).toNat ≤ _
  rw [BitVec.toNat_ofNat]
  omega

/-- Eight bits left: NB = 1 and the last NB that is served, the first that is not, and BRLEN beyond IBUF. -/
theorem witness_GetbitsReadsTheStream :
    (1 ≤ (1#5).toNat ∧ (16#5).toNat ≤ 16)
    ∧ (ReaderOk Config.params two ∧ two.brpos.toNat + (1#5).toNat ≤ two.limit
      ∧ two.brpos.toNat + (8#5).toNat ≤ two.limit)
    ∧ ¬ ReaderOk Config.params (overlong two)
    ∧ (ReaderOk Config.params two ∧ two.limit < two.brpos.toNat + (9#5).toNat) :=
  ⟨by decide, ⟨readerOk_small _ (by decide), by decide, by decide⟩, overlong_not_ok _,
    readerOk_small _ (by decide), by decide⟩

/-! ### Encoder -/

theorem two_writer : WriterInv Config.params two := ⟨Nat.zero_le _, by decide, by decide⟩
theorem two_present : present two 0 ∧ present two 1 ∧ ¬ present two 2 := by decide +kernel
theorem two_len_one : lenOf two.len 0 = 1 ∧ lenOf two.len 1 = 1 := by decide +kernel

theorem witness_EncsymAppendsCode :
    (WriterInv Config.params two ∧ two.tvalid = true ∧ present two 1 ∧ RoomFor Config.params two (lenOf two.len 1))
    ∧ (WriterInv Config.params State.reset ∧ State.reset.tvalid = false)
    ∧ (WriterInv Config.params two ∧ two.tvalid = true ∧ ¬ present two 2)
    ∧ (WriterInv Config.params (fullWriter two) ∧ (fullWriter two).tvalid = true ∧ present (fullWriter two) 1
      ∧ ¬ RoomFor Config.params (fullWriter two) (lenOf (fullWriter two).len 1)) := by
  have e : lenOf (fullWriter two).len 1 = 1 := two_len_one.2
  refine ⟨⟨two_writer, rfl, two_present.2.1, room_small _ _ ?_⟩, ⟨⟨Nat.zero_le _, by decide, by decide⟩, rfl⟩,
    ⟨two_writer, rfl, two_present.2.2⟩, fullWriter_inv _, rfl, two_present.2.1, ?_⟩
  · rw [two_len_one.2]
    decide
  · rw [e]
    exact fullWriter_full _ _ (by decide)

theorem two_input : inputBytes two = [1] := by rfl

theorem witness_EncodeAppendsCodesInOrder :
    WriterInv Config.params two ∧ two.tvalid = true ∧ two.iptr.toNat + two.icnt.toNat ≤ Config.params.ibufBytes
    ∧ (∀ x ∈ inputBytes two, present two x) ∧ RoomFor Config.params two (codesOf two (inputBytes two)).length := by
  refine ⟨two_writer, rfl, le_trans (by decide) (ibufBytes_ge _), ?_, ?_⟩
  · rw [two_input]
    intro x hx
    rw [List.mem_singleton.mp hx]
    exact two_present.2.1
  · refine room_small _ _ ?_
    rw [two_input]
    simp only [codesOf, codeBits, msbBits, two_len_one, List.map_cons, List.map_nil, List.flatten_cons,
      List.flatten_nil, List.append_nil, List.length_map, List.length_range]
    decide

/-- The second of two input bytes has no code. -/
def twoThenAbsent : State := { two with ibuf := [(0, 1), (1, 2)], icnt := 2 }

theorem witness_EncodeFailures :
    (WriterInv Config.params State.reset ∧ State.reset.tvalid = false)
    ∧ (let s : State := { two with icnt := 0xFFFFFFFF };
        WriterInv Config.params s ∧ s.tvalid = true ∧ Config.params.ibufBytes < s.iptr.toNat + s.icnt.toNat)
    ∧ (let s : State := twoThenAbsent;
        WriterInv Config.params s ∧ s.tvalid = true ∧ s.iptr.toNat + s.icnt.toNat ≤ Config.params.ibufBytes
        ∧ inputBytes s = [1] ++ 2 :: [] ∧ (∀ y ∈ ([1] : List Symbol), present s y)
        ∧ RoomFor Config.params s (codesOf s [1]).length ∧ ¬ present s 2)
    ∧ (let s : State := fullWriter two;
        WriterInv Config.params s ∧ s.tvalid = true ∧ s.iptr.toNat + s.icnt.toNat ≤ Config.params.ibufBytes
        ∧ inputBytes s = [] ++ 1 :: [] ∧ (∀ y ∈ ([] : List Symbol), present s y)
        ∧ RoomFor Config.params s (codesOf s []).length ∧ present s 1
        ∧ ¬ RoomFor Config.params s (codesOf s ([] ++ [1])).length) := by
  have hl := Config.params.ibufBytes_le
  have hr : ∀ s : State, s.len = two.len → (codesOf s [1]).length = 1 := fun s h => by
    simp only [codesOf, codeBits, msbBits, h, two_len_one, List.map_cons, List.map_nil, List.flatten_cons,
      List.flatten_nil, List.append_nil, List.length_map, List.length_range]
  refine ⟨⟨⟨Nat.zero_le _, by decide, by decide⟩, rfl⟩, ⟨two_writer, rfl, ?_⟩,
    ⟨two_writer, rfl, le_trans (by decide) (ibufBytes_ge _), rfl, ?_, ?_, two_present.2.2⟩,
    fullWriter_inv _, rfl, ?_, rfl, nofun, ?_, two_present.2.1, ?_⟩
  · show _ < (0#32).toNat + (0xFFFFFFFF#32).toNat
    have : (0xFFFFFFFF#32).toNat = 0xFFFFFFFF := rfl
    omega
  · intro y hy
    rw [List.mem_singleton.mp hy]
    exact two_present.2.1
  · rw [hr twoThenAbsent rfl]
    exact room_small _ _ (by decide)
  · show (0#32).toNat + (1#32).toNat ≤ _
    exact le_trans (by decide) (ibufBytes_ge _)
  · show _ + ((7#4).toNat + 0) / 8 ≤ _
    exact (fullWriter_optr two).le
  · rw [List.nil_append, hr (fullWriter two) rfl]
    exact fullWriter_full _ _ (by decide)

/-- ENCODE of `two`, and FLUSH after it: one byte 0x80 with seven pad bits. -/
def twoEncoded : State := runCommand (encodeRule Config.params) two
def twoFlushed : State := runCommand (flushRule Config.params) twoEncoded

theorem twoEncoded_ok : exec .encode two = .next twoEncoded ∧ twoEncoded.errCode = .noError := by
  exact ⟨rfl, by decide +kernel⟩

theorem twoFlushed_ok : exec .flush twoEncoded = .next twoFlushed ∧ twoFlushed.errCode = .noError
    ∧ twoFlushed.optr = 1 ∧ twoFlushed.pad = 7 ∧ twoFlushed.obufByte 0 = 0x80#8 := by
  exact ⟨rfl, by decide +kernel⟩

theorem witness_EncodeThenFlushWritesPayload :
    WriterInv Config.params two ∧ two.bwcnt = 0 ∧ two.errCode = .noError
    ∧ exec .encode two = .next twoEncoded ∧ twoEncoded.errCode = .noError
    ∧ exec .flush twoEncoded = .next twoFlushed ∧ twoFlushed.errCode = .noError :=
  ⟨two_writer, rfl, rfl, twoEncoded_ok.1, twoEncoded_ok.2, twoFlushed_ok.1, twoFlushed_ok.2.1⟩

/-! ### Decoder -/

theorem witness_DecsymReturnsTheSymbol :
    TableInv Config.params two ∧ two.tvalid = true ∧ ReaderOk Config.params two ∧ present two 0
    ∧ StreamStartsWith two (codeBits two 0) :=
  ⟨two_table _, rfl, readerOk_small _ (by decide), two_present.1, by decide +kernel⟩

/-- The stream at its end, and in a table without a symbol the first bit. -/
theorem witness_DecsymFailures :
    State.reset.tvalid = false
    ∧ ((overlong two).tvalid = true ∧ ¬ ReaderOk Config.params (overlong two))
    ∧ (let s : State := { two with brpos := 8 };
        s.tvalid = true ∧ ReaderOk Config.params s ∧ TableInv Config.params s ∧ StreamEndsMidCode s s.brpos.toNat)
    ∧ (bare.tvalid = true ∧ ReaderOk Config.params bare ∧ TableInv Config.params bare
      ∧ StreamLeavesTree bare bare.brpos.toNat 0) := by
  refine ⟨rfl, ⟨rfl, overlong_not_ok _⟩, ⟨rfl, readerOk_small _ (by decide), two_table _, .inl (by decide)⟩, rfl,
    readerOk_small _ (by decide), bare_table _, Nat.le_refl _, by decide, .inl rfl, ?_⟩
  intro x hx
  exact absurd hx (by rw [present, bare_len]; decide)

theorem witness_DecodeEmitsDeclaredCount :
    (let s : State := { two with dcnt := 2 };
      WriterInv Config.params s ∧ TableInv Config.params s ∧ s.tvalid = true ∧ ReaderOk Config.params s
      ∧ ([0, 0] : List Symbol).length = s.dcnt.toNat ∧ (∀ x ∈ ([0, 0] : List Symbol), present s x)
      ∧ StreamStartsWith s (codesOf s [0, 0]) ∧ RoomFor Config.params s (8 * 2))
    ∧ (WriterInv Config.params two ∧ TableInv Config.params two ∧ two.tvalid = true ∧ ReaderOk Config.params two
      ∧ ([] : List Symbol).length = two.dcnt.toNat ∧ RoomFor Config.params two 0) := by
  refine ⟨⟨two_writer, two_table _, rfl, readerOk_small _ (by decide), rfl, ?_, by decide +kernel,
    room_small _ _ (by decide)⟩, two_writer, two_table _, rfl, readerOk_small _ (by decide), rfl,
    room_small _ _ (by decide)⟩
  intro x hx
  have : x = 0 := by simpa using hx
  rw [this]
  exact two_present.1

theorem witness_DecallEmitsUntilTheLimit :
    (let s : State := { two with brpos := 8 };
      s.tvalid = true ∧ ReaderOk Config.params s ∧ s.limit ≤ s.brpos.toNat)
    ∧ (let s : State := { two with brpad := 6 };
        s.tvalid = true ∧ ReaderOk Config.params s ∧ WriterInv Config.params s ∧ TableInv Config.params s
        ∧ (∀ x ∈ ([0, 0] : List Symbol), present s x) ∧ StreamStartsWith s (codesOf s [0, 0])
        ∧ s.brpos.toNat + (codesOf s [0, 0]).length = s.limit ∧ RoomFor Config.params s (8 * 2)) := by
  refine ⟨⟨rfl, readerOk_small _ (by decide), by decide⟩, rfl, readerOk_small _ (by decide), two_writer, two_table _,
    ?_, by decide +kernel, by decide +kernel, room_small _ _ (by decide)⟩
  intro x hx
  have : x = 0 := by simpa using hx
  rw [this]
  exact two_present.1

/-- MAX_LEN 2 and buffers of four bytes. -/
def pTiny : Params := ⟨0, 0, 1⟩

/-- Symbol 0 has the code `0` and symbol 1 the code `10`; no code starts with `11`. Two symbols are due. -/
def three : State :=
  { State.reset with
    len := tableSet (tableSet (Vector.replicate 256 0) 0 1) 1 2
    code := tableSet (Vector.replicate 256 0) 1 2
    tvalid := true
    brlen := 1
    dcnt := 2 }

theorem three_table : TableInv pTiny three := by
  refine fun _ => ⟨⟨by decide +kernel, by decide +kernel⟩, by decide +kernel⟩

theorem three_present : present three 0 ∧ present three 1 := by decide +kernel

/-- After the symbol 0: the stream `01` ends at an internal node, the stream `0` at the root, the stream `011` leaves the
tree at bit 2, and the stream `00` has one more symbol with no room for it. -/
theorem witness_DecodeAndDecallFailures :
    State.reset.tvalid = false
    ∧ (let s : State := { three with brlen := 5 }; s.tvalid = true ∧ ¬ ReaderOk pTiny s)
    ∧ (let s : State := { three with ibuf := [(0, 0x40)], brpad := 6 };
        s.tvalid = true ∧ ReaderOk pTiny s ∧ TableInv pTiny s ∧ WriterInv pTiny s
        ∧ (∀ x ∈ ([0] : List Symbol), present s x) ∧ StreamStartsWith s (codesOf s [0]) ∧ RoomFor pTiny s (8 * 1)
        ∧ 1 < s.dcnt.toNat ∧ s.brpos.toNat + (codesOf s [0]).length < s.limit
        ∧ StreamEndsMidCode s (s.brpos.toNat + (codesOf s [0]).length))
    ∧ (let s : State := { three with ibuf := [(0, 0x40)], brpad := 7 };
        StreamStartsWith s (codesOf s [0]) ∧ StreamEndsMidCode s (s.brpos.toNat + (codesOf s [0]).length))
    ∧ (let s : State := { three with ibuf := [(0, 0x60)], brpad := 5 };
        StreamStartsWith s (codesOf s [0]) ∧ 1 < s.dcnt.toNat
        ∧ StreamLeavesTree s (s.brpos.toNat + (codesOf s [0]).length) 2)
    ∧ (let s : State := { three with ibuf := [(0, 0x00)], brpad := 6, optr := 3 };
        WriterInv pTiny s ∧ StreamStartsWith s (codesOf s ([0] ++ [0])) ∧ present s 0 ∧ RoomFor pTiny s (8 * 1)
        ∧ ¬ RoomFor pTiny s (8 * (1 + 1))) := by
  have e0 : codeBits three 0 = [false] ∧ codeBits three 1 = [true, false] := by decide +kernel
  have hsym : ∀ x, present three x → x = 0 ∨ x = 1 := by decide +kernel
  refine ⟨rfl, by decide, ⟨rfl, by decide, three_table, by decide, ?_, by decide +kernel, by decide, by decide,
    by decide +kernel, .inr ⟨1, three_present.2, by decide +kernel, by decide +kernel⟩⟩,
    ⟨by decide +kernel, .inl (by decide +kernel)⟩, ⟨by decide +kernel, by decide, ?_⟩,
    by decide, by decide +kernel, three_present.1, by decide, by decide⟩
  · intro x hx
    rw [List.mem_singleton.mp hx]
    exact three_present.1
  · refine ⟨by decide +kernel, by decide +kernel, .inr ⟨1, three_present.2, by decide +kernel, by decide +kernel⟩, ?_⟩
    intro x hx
    rcases hsym x hx with rfl | rfl <;> decide +kernel

/-- `two` with the payload of `twoFlushed` in IBUF. -/
def twoDecoding : State := { two with ibuf := [(0, 0x80)], brpad := 7, dcnt := 1 }

theorem witness_DecodeInvertsEncode :
    WriterInv Config.params two ∧ TableInv Config.params two ∧ two.bwcnt = 0 ∧ 1 ≤ two.icnt.toNat
    ∧ two.errCode = .noError ∧ exec .encode two = .next twoEncoded ∧ twoEncoded.errCode = .noError
    ∧ exec .flush twoEncoded = .next twoFlushed ∧ twoFlushed.errCode = .noError
    ∧ twoDecoding.len = two.len ∧ twoDecoding.tvalid = true ∧ TableInv Config.params twoDecoding
    ∧ twoDecoding.errCode = .noError ∧ twoDecoding.optr = 0 ∧ twoDecoding.bwcnt = 0 ∧ twoDecoding.bwacc = 0
    ∧ twoDecoding.brpos = 0 ∧ twoDecoding.dcnt = two.icnt
    ∧ twoDecoding.brlen.toNat = twoFlushed.optr.toNat - two.optr.toNat ∧ twoDecoding.brpad = twoFlushed.pad
    ∧ ReaderOk Config.params twoDecoding ∧ two.icnt.toNat ≤ Config.params.obufBytes
    ∧ ∀ k, k < twoFlushed.optr.toNat - two.optr.toNat →
      twoDecoding.ibufByte k = twoFlushed.obufByte (two.optr.toNat + k) := by
  obtain ⟨hf, hn, ho, hp, hb⟩ := twoFlushed_ok
  refine ⟨two_writer, two_table _, rfl, by decide, rfl, twoEncoded_ok.1, twoEncoded_ok.2, hf, hn, rfl, rfl,
    two_table _, rfl, rfl, rfl, rfl, rfl, rfl, by rw [ho]; rfl, hp.symm, readerOk_small _ (by decide),
    le_trans (by decide) (obufBytes_ge _), ?_⟩
  intro k hk
  rw [ho] at hk
  obtain rfl : k = 0 := Nat.lt_one_iff.mp hk
  exact hb.symm

theorem witness_TruncatedPayloadIsDetected :
    let v : State := { two with ibuf := [], brlen := 0, brpad := 3, dcnt := 1 }
    WriterInv Config.params two ∧ TableInv Config.params two ∧ two.bwcnt = 0 ∧ 1 ≤ two.icnt.toNat
    ∧ two.errCode = .noError ∧ exec .encode two = .next twoEncoded ∧ twoEncoded.errCode = .noError
    ∧ exec .flush twoEncoded = .next twoFlushed ∧ twoFlushed.errCode = .noError
    ∧ v.len = two.len ∧ v.tvalid = true ∧ TableInv Config.params v ∧ v.errCode = .noError
    ∧ v.optr = 0 ∧ v.bwcnt = 0 ∧ v.bwacc = 0 ∧ v.brpos = 0 ∧ v.dcnt = two.icnt
    ∧ v.brlen.toNat = twoFlushed.optr.toNat - two.optr.toNat - 1
    ∧ ReaderOk Config.params v ∧ two.icnt.toNat ≤ Config.params.obufBytes
    ∧ ∀ k, k < twoFlushed.optr.toNat - two.optr.toNat - 1 →
      v.ibufByte k = twoFlushed.obufByte (two.optr.toNat + k) := by
  obtain ⟨hf, hn, ho, -, -⟩ := twoFlushed_ok
  refine ⟨two_writer, two_table _, rfl, by decide, rfl, twoEncoded_ok.1, twoEncoded_ok.2, hf, hn, rfl, rfl,
    two_table _, rfl, rfl, rfl, rfl, rfl, rfl, by rw [ho]; rfl, readerOk_small _ (by decide),
    le_trans (by decide) (obufBytes_ge _), ?_⟩
  intro k hk
  rw [ho] at hk
  exact absurd hk (Nat.not_lt_zero k)

/-! ### Errors, frames and the invariant -/

/-- ENCODE of `twoThenAbsent` fails at its second byte. -/
theorem witness_FailedCommandIsRolledBack :
    twoThenAbsent.errCode = .noError
    ∧ exec .encode twoThenAbsent = .next (runCommand (encodeRule Config.params) twoThenAbsent)
    ∧ (runCommand (encodeRule Config.params) twoThenAbsent).errCode ≠ .noError := by
  exact ⟨rfl, rfl, by decide +kernel⟩

theorem witness_ErrorsEachCommandRaises :
    State.reset.errCode = .noError
    ∧ exec .decall State.reset = .next (runCommand (decallRule Config.params) State.reset)
    ∧ (runCommand (decallRule Config.params) State.reset).errCode ≠ .noError := by
  exact ⟨rfl, rfl, by decide +kernel⟩

theorem witness_NoCommandWritesHostRegisters : exec .encode two = .next twoEncoded := rfl

theorem witness_CountersAndTableChangeOnlyByTheirCommands : exec .encode two = .next twoEncoded ∧ two.tvalid = true :=
  ⟨rfl, rfl⟩

theorem witness_WriterChangesOnlyByItsCommands :
    exec .bwreset twoFlushed = .next (runCommand bwresetRule twoFlushed)
    ∧ exec .fscan two = .next (runCommand (fscanRule Config.params) two) := ⟨rfl, rfl⟩

theorem witness_ReaderChangesOnlyByItsCommands : exec .flush twoEncoded = .next twoFlushed := rfl

theorem witness_SuccessfulCommandStoresOnlyFromOptr :
    twoEncoded.errCode = .noError ∧ exec .flush twoEncoded = .next twoFlushed ∧ twoFlushed.errCode = .noError :=
  ⟨twoEncoded_ok.2, rfl, twoFlushed_ok.2.1⟩

theorem witness_StepKeepsInvariant :
    (busyTwo 0x41000000).Inv Config.params
    ∧ step (busyTwo 0x41000000) = .next (runCommand (encodeRule Config.params) (busyTwo 0x41000000)) :=
  ⟨busyTwo_inv _, rfl⟩

end Sys2Proof.Tests
end

section
/-! SUPPORT. The errors each rule can raise, read off its pseudocode (spec/60_exceptions.md R182, R184). -/

namespace Sys2Proof.Machine

/-- Every error that `r` raises is listed in `es`. -/
def Result.RaisesOnly {α : Type} (es : List ErrCode) (r : Result α) : Prop :=
  ∀ e i u, r = .raised e i u → e ∈ es

theorem Result.raisesOnly_ok {α : Type} {es : List ErrCode} (a : α) (t : State) :
    (Result.ok a t).RaisesOnly es := by
  intro e i u h
  cases h

theorem Result.raisesOnly_raised {α : Type} {es : List ErrCode} {e : ErrCode} (h : e ∈ es) (i : Word) (u : State) :
    (Result.raised e i u : Result α).RaisesOnly es := by
  rintro _ _ _ ⟨⟩
  exact h

theorem Result.RaisesOnly.bind {α β : Type} {es : List ErrCode} {r : Result α} {f : α → State → Result β}
    (hr : r.RaisesOnly es) (hf : ∀ a t, (f a t).RaisesOnly es) : (r.bind f).RaisesOnly es := by
  intro e i u h
  rcases Result.bind_eq_raised h with h | ⟨a, t, -, h⟩
  · exact hr e i u h
  · exact hf a t e i u h

variable {es : List ErrCode} (p : Params) (s : State)

theorem checkTable_raisesOnly (h : .tableInvalid ∈ es) : (checkTable s).RaisesOnly es := by
  unfold checkTable
  split
  · exact Result.raisesOnly_raised h _ _
  · exact Result.raisesOnly_ok _ _

theorem checkReader_raisesOnly (h : .rangeError ∈ es) : (checkReader p s).RaisesOnly es := by
  unfold checkReader
  split
  · exact Result.raisesOnly_raised h _ _
  · exact Result.raisesOnly_ok _ _

theorem checkInputRange_raisesOnly (h : .rangeError ∈ es) : (checkInputRange p s).RaisesOnly es := by
  unfold checkInputRange
  split
  · exact Result.raisesOnly_ok _ _
  · exact Result.raisesOnly_raised h _ _

theorem checkDecoder_raisesOnly (ht : .tableInvalid ∈ es) (hr : .rangeError ∈ es) :
    (checkDecoder p s).RaisesOnly es :=
  (checkTable_raisesOnly s ht).bind fun _ t => checkReader_raisesOnly p t hr

theorem putBits_raisesOnly (n v : Nat) (h : .outputOverflow ∈ es) : (putBits p n v s).RaisesOnly es := by
  intro e i u hu
  rw [(putBits_raised hu).1]
  exact h

theorem encodeSym_raisesOnly (k : Nat) (x : Symbol) (hn : .symbolNotInTable ∈ es) (ho : .outputOverflow ∈ es) :
    (encodeSym p k x s).RaisesOnly es := by
  unfold encodeSym
  split
  · exact Result.raisesOnly_raised hn _ _
  · exact putBits_raisesOnly p s _ _ ho

theorem encodeFrom_raisesOnly (n k : Nat) (hn : .symbolNotInTable ∈ es) (ho : .outputOverflow ∈ es) :
    (encodeFrom p n k s).RaisesOnly es := by
  induction n generalizing k s with
  | zero => exact Result.raisesOnly_ok _ _
  | succ n ih => exact (encodeSym_raisesOnly p s k _ hn ho).bind fun _ t => ih t (k + 1)

theorem decodeLoop_raisesOnly (k fuel l v : Nat) (ht : .truncatedPayload ∈ es) (hi : .invalidCode ∈ es) :
    (decodeLoop k fuel l v s).RaisesOnly es := by
  induction fuel generalizing l v s with
  | zero => exact Result.raisesOnly_raised hi _ _
  | succ fuel ih =>
    rw [decodeLoop]
    split
    · exact Result.raisesOnly_raised ht _ _
    · dsimp only
      split
      · exact Result.raisesOnly_ok _ _
      · split
        · exact ih _ _ _
        · exact Result.raisesOnly_raised hi _ _

/-- The errors that decoding one symbol and appending it can raise. -/
abbrev decodingErrors : List ErrCode := [.truncatedPayload, .invalidCode, .outputOverflow]

theorem decodeOne_raisesOnly (k : Nat) (h : decodingErrors ⊆ es) : (decodeOne p k s).RaisesOnly es :=
  (decodeLoop_raisesOnly s k 255 0 0 (h (by decide)) (h (by decide))).bind fun _ t =>
    putBits_raisesOnly p t _ _ (h (by decide))

theorem decodeFrom_raisesOnly (n k : Nat) (h : decodingErrors ⊆ es) : (decodeFrom p n k s).RaisesOnly es := by
  induction n generalizing k s with
  | zero => exact Result.raisesOnly_ok _ _
  | succ n ih => exact (decodeOne_raisesOnly p s k h).bind fun _ t => ih t (k + 1)

theorem decodeAllFrom_raisesOnly (fuel k : Nat) (h : decodingErrors ⊆ es) :
    (decodeAllFrom p fuel k s).RaisesOnly es := by
  induction fuel generalizing k s with
  | zero => exact Result.raisesOnly_ok _ _
  | succ fuel ih =>
    rw [decodeAllFrom]
    split
    · exact (decodeOne_raisesOnly p s k h).bind fun _ t => ih t (k + 1)
    · exact Result.raisesOnly_ok _ _

theorem tbuildRule_raisesOnly (h : .invalidHeader ∈ es) : (tbuildRule p s).RaisesOnly es := by
  unfold tbuildRule
  split
  · exact Result.raisesOnly_raised h _ _
  · split
    · exact Result.raisesOnly_raised h _ _
    · exact Result.raisesOnly_ok _ _

theorem flushRule_raisesOnly (h : .outputOverflow ∈ es) : (flushRule p s).RaisesOnly es := by
  unfold flushRule
  split
  · split
    · exact Result.raisesOnly_raised h _ _
    · exact Result.raisesOnly_ok _ _
  · exact Result.raisesOnly_ok _ _

theorem getbitsRule_raisesOnly (nb : BitVec 5) (hr : .rangeError ∈ es) (ht : .truncatedPayload ∈ es) :
    (getbitsRule p nb s).RaisesOnly es := by
  refine (checkReader_raisesOnly p s hr).bind fun _ t => ?_
  split
  · exact Result.raisesOnly_raised ht _ _
  · exact Result.raisesOnly_ok _ _

/-- A command raises only the errors that R182 lists it under. -/
theorem ruleOf_raisesOnly (i : Instr) : (ruleOf i s).RaisesOnly (mayRaise i) := by
  cases i with
  | nop | clrerr | fclr | facc | bwreset | brreset => exact Result.raisesOnly_ok _ _
  | fscan => exact (checkInputRange_raisesOnly _ s (by decide)).bind fun _ _ => Result.raisesOnly_ok _ _
  | tbuild => exact tbuildRule_raisesOnly _ s (by decide)
  | putbits nb val => exact putBits_raisesOnly _ s _ _ (by simp [mayRaise])
  | flush => exact flushRule_raisesOnly _ s (by decide)
  | getbits nb => exact getbitsRule_raisesOnly _ s nb (by simp [mayRaise]) (by simp [mayRaise])
  | encsym sym =>
    exact (checkTable_raisesOnly s (by simp [mayRaise])).bind fun _ t =>
      encodeSym_raisesOnly _ t 0 sym (by simp [mayRaise]) (by simp [mayRaise])
  | encode =>
    exact (checkTable_raisesOnly s (by decide)).bind fun _ t =>
      (checkInputRange_raisesOnly _ t (by decide)).bind fun _ u =>
        encodeFrom_raisesOnly _ u _ 0 (by decide) (by decide)
  | decsym =>
    exact (checkDecoder_raisesOnly _ s (by decide) (by decide)).bind fun _ t =>
      (decodeLoop_raisesOnly t 0 255 0 0 (by decide) (by decide)).bind fun _ _ => Result.raisesOnly_ok _ _
  | decode =>
    exact (checkDecoder_raisesOnly _ s (by decide) (by decide)).bind fun _ t =>
      (decodeFrom_raisesOnly _ t _ 0 (by decide)).bind fun _ _ => Result.raisesOnly_ok _ _
  | decall =>
    exact (checkDecoder_raisesOnly _ s (by decide) (by decide)).bind fun _ t =>
      (decodeAllFrom_raisesOnly _ t _ 0 (by decide)).bind fun _ _ => Result.raisesOnly_ok _ _

theorem noError_not_mem_mayRaise (i : Instr) : .noError ∉ mayRaise i := by
  cases i <;> simp [mayRaise]

end Sys2Proof.Machine
end

section
/-! PROOFS. The invariant of HCB (`State.Inv`) is kept by every command's rule, by taking an error, by every host write
and by reset, and so by every step. -/

namespace Sys2Proof.Machine

/-! ### Commands -/

/-- A rule that only moves the writer and the reader keeps the invariant, if the reader stays within IBUF. -/
theorem StreamFrame.inv {p : Params} {s t : State} (h : StreamFrame p s t) (hs : s.Inv p)
    (hb : t.brpos.toNat ≤ 8 * p.ibufBytes) : t.Inv p := by
  obtain ⟨⟨ho, hw⟩, -, he, hd, ht, hiw, hii, how, hoi⟩ := hs
  have hopt : t.optr.toNat ≤ p.obufBytes := by
    rcases h.bound with e | b
    · rw [e]
      exact ho
    · exact b
  rw [State.eq_of_streamless h.same]
  exact ⟨⟨hopt, h.writer hw⟩, hb, he, hd, ht, hiw, hii, h.wf how, h.inside hoi⟩

/-- Below a bound that lies in IBUF the reader cannot leave IBUF (R134). -/
theorem StreamFrame.inv_of_readerOk {p : Params} {s t : State} (h : StreamFrame p s t) (hs : s.Inv p)
    (hr : ReaderOk p s) : t.Inv p := by
  refine h.inv hs ?_
  obtain ⟨-, hb, -⟩ := hs
  have hl : s.limit ≤ 8 * p.ibufBytes := by
    unfold State.limit
    omega
  exact h.reader.trans (max_le hb hl)

/-- What holds after the first part, and is kept by the second, holds after both, whether they run to their ends. -/
theorem Result.bind_state {α β : Type} {P : State → Prop} {r : Result α} {f : α → State → Result β}
    (hr : P r.state) (hf : ∀ a t, r = .ok a t → P t → P (f a t).state) : P (r.bind f).state := by
  cases r with
  | ok a t => exact hf a t rfl hr
  | raised e i t => exact hr

theorem putBit_brpos (p : Params) (b : Bool) (s : State) : (putBit p b s).state.brpos = s.brpos := by
  rcases putBit_cases p b s with ⟨-, h⟩ | ⟨-, -, h⟩ | ⟨-, -, h⟩ <;> rw [h] <;> rfl

theorem putBits_inv {p : Params} {s : State} (n v : Nat) (hs : s.Inv p) : (putBits p n v s).state.Inv p := by
  induction n generalizing s with
  | zero => exact hs
  | succ n ih =>
    refine Result.bind_state ((putBit_frame p _ s).inv hs ?_) fun _ _ _ ht => ih ht
    obtain ⟨-, hb, -⟩ := hs
    rwa [putBit_brpos]

theorem encodeSym_inv {p : Params} {s : State} (k : Nat) (x : Symbol) (hs : s.Inv p) :
    (encodeSym p k x s).state.Inv p := by
  unfold encodeSym
  split
  · exact hs
  · exact putBits_inv _ _ hs

theorem encodeFrom_inv {p : Params} {s : State} (n k : Nat) (hs : s.Inv p) : (encodeFrom p n k s).state.Inv p := by
  induction n generalizing k s with
  | zero => exact hs
  | succ n ih => exact Result.bind_state (encodeSym_inv k _ hs) fun _ _ _ ht => ih (k + 1) ht

theorem checkTable_state (s : State) : (checkTable s).state = s := by
  unfold checkTable
  split <;> rfl

theorem checkInputRange_state (p : Params) (s : State) : (checkInputRange p s).state = s := by
  unfold checkInputRange
  split <;> rfl

/-- `CheckReader()` leaves the state alone, and passes only with the bound in IBUF (R134). -/
theorem checkReader_bind_inv {p : Params} {s : State} {α : Type} {f : Unit → State → Result α} (hs : s.Inv p)
    (hf : ReaderOk p s → (f () s).state.Inv p) : ((checkReader p s).bind f).state.Inv p := by
  unfold checkReader
  split
  · exact hs
  · exact hf (by omega)

theorem checkDecoder_bind_inv {p : Params} {s : State} {α : Type} {f : Unit → State → Result α} (hs : s.Inv p)
    (hf : ReaderOk p s → (f () s).state.Inv p) : ((checkDecoder p s).bind f).state.Inv p := by
  unfold checkDecoder checkTable
  split
  · exact hs
  · exact checkReader_bind_inv hs hf

/-- FLUSH starts a fresh byte, if it completed one inside OBUF (R137). -/
theorem flushRule_inv {p : Params} {s : State} (hs : s.Inv p) : (flushRule p s).state.Inv p := by
  obtain ⟨⟨ho, hw⟩, hb, he, hd, ht, hiw, hii, how, hoi⟩ := hs
  unfold flushRule
  split
  · split
    · exact ⟨⟨ho, hw⟩, hb, he, hd, ht, hiw, hii, how, hoi⟩
    · have hlt : s.optr.toNat < p.obufBytes := by omega
      refine ⟨⟨?_, by simp, by simp⟩, hb, he, hd, ht, hiw, hii, Memory.write_wf _ _ how,
        Memory.write_inside _ hlt hoi⟩
      simp only [Result.state_ok, State.setPad_optr, State.setWriter_optr, optr_succ hlt]
      exact hlt
  · exact ⟨⟨ho, hw⟩, hb, he, hd, ht, hiw, hii, how, hoi⟩

theorem getbitsRule_inv {p : Params} {s : State} (nb : BitVec 5) (hs : s.Inv p) :
    (getbitsRule p nb s).state.Inv p := by
  refine checkReader_bind_inv hs fun hr => ?_
  split
  · exact hs
  · exact (getBits_frame p _ 0 (by omega)).inv_of_readerOk hs hr

/-- The Kraft sum over the present symbols is R120's over all symbols. -/
theorem kraftSum_eq_kraftUnits (p : Params) (t : Vector Byte 256) : kraftSum p t = kraftUnits p t := by
  unfold kraftSum presentSymbols kraftUnits
  induction symbols with
  | nil => rfl
  | cons x xs ih =>
    by_cases h : lenOf t x = 0
    · simpa [h] using ih
    · simpa [h, Nat.pos_of_ne_zero h] using ih

theorem firstTooLong_eq_none {p : Params} {t : Vector Byte 256} :
    firstTooLong p t = none ↔ ∀ x : Symbol, lenOf t x ≤ p.maxLen := by
  simp [firstTooLong, List.find?_eq_none]

/-- TBUILD sets TVALID only over a valid LENTAB, and then CODE is its canonical table (R122). -/
theorem tbuildRule_inv {p : Params} {s : State} (hs : s.Inv p) : (tbuildRule p s).state.Inv p := by
  unfold tbuildRule
  split
  · exact hs
  · rename_i hlen
    split
    · exact hs
    · rename_i hkraft
      have hv : ValidTable p s.len :=
        ⟨firstTooLong_eq_none.1 hlen, kraftSum_eq_kraftUnits p s.len ▸ Nat.not_lt.1 hkraft⟩
      obtain ⟨hw, hb, he, hd, -, hm⟩ := hs
      exact ⟨hw, hb, he, hd, fun _ => ⟨hv, rfl⟩, hm⟩

/-- Every command's rule ends in a state that meets the invariant, also where it raises. -/
theorem ruleOf_inv {s : State} (i : Instr) (hs : s.Inv Config.params) : (ruleOf i s).state.Inv Config.params := by
  cases i with
  | nop | fclr | facc => exact hs
  | clrerr =>
    obtain ⟨hw, hb, -, hd, hm⟩ := hs
    exact ⟨hw, hb, fun _ => rfl, hd, hm⟩
  | fscan =>
    refine Result.bind_state ((checkInputRange_state _ s).symm ▸ hs) fun _ t _ ht => ?_
    obtain ⟨f, c, o, h⟩ := incRange_frame t.icnt.toNat t.iptr.toNat t
    rw [h]
    exact ht
  | tbuild => exact tbuildRule_inv hs
  | bwreset =>
    obtain ⟨-, hm⟩ := hs
    exact ⟨⟨Nat.zero_le _, Nat.zero_le 7, Nat.zero_lt_one⟩, hm⟩
  | putbits nb val => exact putBits_inv _ _ hs
  | flush => exact flushRule_inv hs
  | brreset =>
    obtain ⟨hw, -, hm⟩ := hs
    exact ⟨hw, Nat.zero_le _, hm⟩
  | getbits nb => exact getbitsRule_inv nb hs
  | encsym sym =>
    exact Result.bind_state ((checkTable_state s).symm ▸ hs) fun _ _ _ ht => encodeSym_inv 0 sym ht
  | encode =>
    exact Result.bind_state ((checkTable_state s).symm ▸ hs) fun _ t _ ht =>
      Result.bind_state ((checkInputRange_state _ t).symm ▸ ht) fun _ _ _ hu => encodeFrom_inv _ 0 hu
  | decsym =>
    exact checkDecoder_bind_inv hs fun hr =>
      Result.bind_state ((decodeLoop_frame _ 0 255 0 0 s).inv_of_readerOk hs hr) fun _ _ _ ht => ht
  | decode =>
    exact checkDecoder_bind_inv hs fun hr =>
      Result.bind_state ((decodeFrom_frame _ _ 0 s).inv_of_readerOk hs hr) fun _ _ _ ht => ht
  | decall =>
    exact checkDecoder_bind_inv hs fun hr =>
      Result.bind_state ((decodeAllFrom_frame _ _ 0 s).inv_of_readerOk hs hr) fun _ _ _ ht => ht

/-! ### The engine -/

theorem complete_inv {p : Params} {s : State} (hs : s.Inv p) : s.complete.Inv p := by
  obtain ⟨hw, hb, he, -, hm⟩ := hs
  exact ⟨hw, hb, he, nofun, hm⟩

/-- Taking an error keeps the invariant: the bytes left unspecified lie inside OBUF (R181). -/
theorem takeError_inv {p : Params} {s u : State} {e : ErrCode} (i : Word) (hs : s.Inv p) (he : e ≠ .noError)
    (hu : u.optr.toNat ≤ p.obufBytes) : (takeError e i s u).Inv p := by
  obtain ⟨hw, hb, -, hd, ht, hiw, hii, how, hoi⟩ := hs
  have hn : bytesWritten s u = 0 ∨ s.optr.toNat + bytesWritten s u ≤ p.obufBytes := by
    unfold bytesWritten
    omega
  exact ⟨hw, hb, fun h => absurd h he, hd, ht, hiw, hii, Memory.unspecify_wf _ _ _ how,
    Memory.unspecify_inside _ _ _ hn hoi⟩

theorem exec_inv {s t : State} (i : Instr) (hs : s.Inv Config.params) (h : exec i s = .next t) :
    t.Inv Config.params := by
  rw [exec_eq] at h
  cases h
  have hr := ruleOf_inv i hs
  rcases runCommand_cases (ruleOf i) s with ⟨t, h, hc⟩ | ⟨e, info, u, h, hc⟩ <;> rw [hc] <;> rw [h] at hr
  · exact complete_inv hr
  · have he : e ≠ .noError := fun hn => noError_not_mem_mayRaise i (hn ▸ ruleOf_raisesOnly s i e info u h)
    obtain ⟨⟨hu, -⟩, -⟩ := hr
    exact complete_inv (takeError_inv info hs he hu)

theorem engineStep_inv {s t : State} (hs : s.Inv Config.params) (h : engineStep s = .next t) :
    t.Inv Config.params := by
  rcases engineStep_cases s with ⟨-, -, k⟩ | ⟨-, ⟨i, -, k⟩ | ⟨-, -, k⟩⟩ <;> rw [k] at h
  · cases h
    exact complete_inv hs
  · exact exec_inv i hs h
  · cases h
    obtain ⟨hw, hb, -, -, hm⟩ := hs
    exact ⟨hw, hb, nofun, nofun, hm⟩

/-! ### The host and reset -/

theorem registerAt_not_window {i w : Nat} : registerAt i ≠ some (.ibufWord w) ∧ registerAt i ≠ some (.obufWord w) := by
  unfold registerAt
  split <;> simp

/-- The bytes of a mapped IBUF word lie inside IBUF (R62). -/
theorem targetAt_ibufWord {p : Params} {o w : Nat} (h : targetAt p o = some (.ibufWord w)) :
    4 * w + 3 < p.ibufBytes := by
  unfold targetAt at h
  split_ifs at h
  · exact absurd h registerAt_not_window.1
  · cases h
  · cases h
  · cases h
    omega
  · cases h

/-- The bytes of a mapped OBUF word lie inside OBUF (R62). -/
theorem targetAt_obufWord {p : Params} {o w : Nat} (h : targetAt p o = some (.obufWord w)) :
    4 * w + 3 < p.obufBytes := by
  unfold targetAt at h
  split_ifs at h
  · exact absurd h registerAt_not_window.2
  · cases h
  · cases h
  · cases h
  · cases h
    omega

theorem writeLanes_wf {m : List Host.Cell} (w : Nat) (d : Word) (h : Memory.wf m) :
    Memory.wf (writeLanes m w d) :=
  Memory.write_wf _ _ (Memory.write_wf _ _ (Memory.write_wf _ _ (Memory.write_wf _ _ h)))

theorem writeLanes_inside {m : List Host.Cell} {w n : Nat} (d : Word) (hw : 4 * w + 3 < n) (h : ∀ c ∈ m, c.1 < n) :
    ∀ c ∈ writeLanes m w d, c.1 < n :=
  Memory.write_inside _ hw (Memory.write_inside _ (by omega) (Memory.write_inside _ (by omega)
    (Memory.write_inside _ (by omega) h)))

/-- Every write to a mapped target keeps the invariant (R46, R63, R65, R66). -/
theorem writeTarget_inv {p : Params} {s : State} {o : Nat} {t : Target} (d : Word) (hs : s.Inv p)
    (ht : targetAt p o = some t) : (writeTarget d s t).Inv p := by
  obtain ⟨hw, hb, he, hd, htab, hiw, hii, how, hoi⟩ := hs
  cases t with
  | status => exact ⟨hw, hb, he, fun h => by simp [writeTarget, hd h], htab, hiw, hii, how, hoi⟩
  | cmd => exact ⟨hw, hb, he, fun _ => rfl, htab, hiw, hii, how, hoi⟩
  | lentab w => exact ⟨hw, hb, he, hd, nofun, hiw, hii, how, hoi⟩
  | ibufWord w =>
    exact ⟨hw, hb, he, hd, htab, writeLanes_wf w d hiw, writeLanes_inside d (targetAt_ibufWord ht) hii, how, hoi⟩
  | obufWord w =>
    exact ⟨hw, hb, he, hd, htab, hiw, hii, writeLanes_wf w d how, writeLanes_inside d (targetAt_obufWord ht) hoi⟩
  | _ => exact ⟨hw, hb, he, hd, htab, hiw, hii, how, hoi⟩

theorem hostAccess_inv {p : Params} {s : State} (a : Access) (hs : s.Inv p) : (hostAccess p a s).2.Inv p := by
  rcases hostAccess_cases p a s with ⟨-, h⟩ | ⟨t, ht, ⟨-, h⟩ | ⟨-, h⟩⟩ <;> rw [h]
  · exact hs
  · exact hs
  · obtain ⟨-, -, ht, -⟩ := acceptedTarget_eq_some.1 ht
    exact writeTarget_inv a.data hs ht

/-- The state after any reset meets the invariant (R53, R200). -/
theorem resetFrom_inv (p : Params) (s : State) : (resetFrom s).Inv p := by
  obtain ⟨hi, ho⟩ := Memory.reset_wf
  exact ⟨⟨Nat.zero_le _, Nat.zero_le 7, Nat.zero_lt_one⟩, Nat.zero_le _, fun _ => rfl, nofun, nofun, hi, nofun, ho, nofun⟩

/-! ### The step -/

/-- Settles O53: the turns of the engine, the host and the reset input each keep the invariant, which names no field of
the script. -/
theorem stepKeepsInvariant : Obligations.StepKeepsInvariant := by
  intro s t hs h
  rcases step_cases s with ⟨rest, -, k⟩ | ⟨a, rest, -, k⟩ | ⟨rest, -, k⟩ <;> rw [k] at h
  · split at h
    · exact engineStep_inv (s := { s with inputs := rest }) hs h
    · cases h
      exact hs
  · cases h
    exact hostAccess_inv (s := { s with inputs := rest }) a hs
  · cases h
    exact resetFrom_inv _ _

end Sys2Proof.Machine
end

section
/-! PROOFS. How the model takes turns (spec/00_scope.md R7): the script is outside HCB, so no host access looks at it. -/

namespace Sys2Proof.Machine

theorem readTarget_inputs (p : Params) (s : State) (rest : List Input) (t : Target) :
    readTarget p { s with inputs := rest } t = readTarget p s t := by
  cases t <;> rfl

theorem writeTarget_inputs (d : Word) (s : State) (rest : List Input) (t : Target) :
    writeTarget d { s with inputs := rest } t = { writeTarget d s t with inputs := rest } := by
  cases t <;> rfl

theorem writeTarget_responses (d : Word) (s : State) (t : Target) : (writeTarget d s t).responses = s.responses := by
  cases t <;> rfl

/-- A host access answers the same whatever is scripted, and leaves the script alone. -/
theorem hostAccess_inputs (p : Params) (a : Access) (s : State) (rest : List Input) :
    hostAccess p a { s with inputs := rest } = ((hostAccess p a s).1, { (hostAccess p a s).2 with inputs := rest }) := by
  have hb : acceptedTarget p { s with inputs := rest } a = acceptedTarget p s a := rfl
  unfold hostAccess
  rw [hb]
  cases acceptedTarget p s a with
  | none => rfl
  | some t =>
    cases a.kind with
    | read => simp [readTarget_inputs]
    | write => simp [writeTarget_inputs]

theorem hostAccess_responses (p : Params) (a : Access) (s : State) :
    (hostAccess p a s).2.responses = s.responses := by
  rcases hostAccess_cases p a s with ⟨-, h⟩ | ⟨t, -, ⟨-, h⟩ | ⟨-, h⟩⟩ <;> rw [h]
  exact writeTarget_responses a.data s t

/-- A host access off the script is that access, its response recorded, with the script left as it is (log entry 6). -/
theorem hostTurn_inputs (a : Access) (s : State) (rest : List Input) :
    hostTurn a { s with inputs := rest } = .next { (hostAccess Config.params a s).2 with
      inputs := rest, responses := (hostAccess Config.params a s).1 :: s.responses } := by
  unfold hostTurn
  rw [hostAccess_inputs, ← hostAccess_responses Config.params a s]

/-- Settles O6, by the kinds of the script's first entry. -/
theorem stepTakesTheFirstScriptEntry : Obligations.StepTakesTheFirstScriptEntry := by
  intro s rest
  refine ⟨fun a h => ?_, fun h => ?_, fun ⟨hb, hi⟩ => ?_⟩
  · rw [← hostTurn_inputs, step, advance, h]
  · rw [step, advance, h]
  · have hturn : engineTurn { s with inputs := rest } = engineStep { s with inputs := rest } := if_pos hb
    rw [← hturn, step, advance]
    rcases hi with ⟨h, rfl⟩ | h
    · have hs : ({ s with inputs := [] } : State) = s := by rw [← h]
      rw [hs, h]
    · rw [h]

end Sys2Proof.Machine
end

section
/-! SUPPORT. The canonical assignment in units of `2^-MAX_LEN` (spec/42_code_table.md R120, R121): the code of a symbol,
shifted up to MAX_LEN bits, is the Kraft sum of the symbols before it in the canonical order. -/

namespace Sys2Proof.Machine

/-! ### The canonical order -/

theorem keyLe_total (t : Vector Byte 256) (x y : Symbol) : keyLe t x y ∨ keyLe t y x := by
  unfold keyLe
  omega

theorem keyLe_trans {t : Vector Byte 256} {x y z : Symbol} (h : keyLe t x y) (k : keyLe t y z) : keyLe t x z := by
  unfold keyLe at *
  omega

theorem keyBefore_of_keyLe_of_ne {t : Vector Byte 256} {x y : Symbol} (h : keyLe t x y) (hne : x ≠ y) :
    keyBefore t x y := by
  have : x.toNat ≠ y.toNat := fun e => hne (BitVec.eq_of_toNat_eq e)
  unfold keyLe at h
  unfold keyBefore
  omega

theorem keyBefore_len_le {t : Vector Byte 256} {x y : Symbol} (h : keyBefore t x y) : lenOf t x ≤ lenOf t y := by
  unfold keyBefore at h
  omega

theorem keyBefore_asymm {t : Vector Byte 256} {x y : Symbol} (h : keyBefore t x y) : ¬ keyBefore t y x := by
  unfold keyBefore at *
  omega

theorem canonicalOrder_perm (t : Vector Byte 256) : (canonicalOrder t).Perm (presentSymbols t) :=
  List.perm_insertionSort _ _

/-- The model's sorted list is the canonical order of R121. -/
theorem canonicalOrder_isCanonicalOrder (t : Vector Byte 256) : IsCanonicalOrder t (canonicalOrder t) := by
  constructor
  · have : Std.Total (keyLe t) := ⟨keyLe_total t⟩
    have : IsTrans Symbol (keyLe t) := ⟨fun _ _ _ => keyLe_trans⟩
    have hnodup : (canonicalOrder t).Nodup :=
      (canonicalOrder_perm t).nodup_iff.2 (symbols_nodup.filter _)
    exact (List.pairwise_insertionSort (keyLe t) _).imp₂ (fun _ _ => keyBefore_of_keyLe_of_ne) hnodup
  · intro x
    rw [(canonicalOrder_perm t).mem_iff]
    simp [presentSymbols]

/-! ### The Kraft sum of a list of symbols -/

/-- The Kraft sum of a list of symbols, in units of `2^-MAX_LEN` (R120). -/
def kraftOf (p : Params) (t : Vector Byte 256) (xs : List Symbol) : Nat :=
  (xs.map fun x => 2 ^ (p.maxLen - lenOf t x)).sum

@[simp] theorem kraftOf_nil (p : Params) (t : Vector Byte 256) : kraftOf p t [] = 0 := rfl

@[simp] theorem kraftOf_cons (p : Params) (t : Vector Byte 256) (x : Symbol) (xs : List Symbol) :
    kraftOf p t (x :: xs) = 2 ^ (p.maxLen - lenOf t x) + kraftOf p t xs := by simp [kraftOf]

@[simp] theorem kraftOf_append (p : Params) (t : Vector Byte 256) (xs ys : List Symbol) :
    kraftOf p t (xs ++ ys) = kraftOf p t xs + kraftOf p t ys := by simp [kraftOf]

theorem kraftOf_canonicalOrder (p : Params) (t : Vector Byte 256) :
    kraftOf p t (canonicalOrder t) = kraftUnits p t := by
  rw [← kraftSum_eq_kraftUnits]
  exact ((canonicalOrder_perm t).map _).sum_eq

/-! ### The assignment -/

/-- The units taken up to and including the code just assigned: none before the first. -/
def unitsUsed (p : Params) : Option (Nat × Nat) → Nat
  | none => 0
  | some (c, l) => (c + 1) * 2 ^ (p.maxLen - l)

/-- The code just assigned, if any, is no longer than `l`: the codes come in rising length (R121). -/
def NotLonger (before : Option (Nat × Nat)) (l : Nat) : Prop := ∀ c l', before = some (c, l') → l' ≤ l

theorem notLonger_none (l : Nat) : NotLonger none l := by
  intro _ _ h
  cases h

/-- The next code begins where the units of the codes before it end (R121). -/
theorem nextCode_scaled {p : Params} {before : Option (Nat × Nat)} {l : Nat} (hl : l ≤ p.maxLen)
    (hb : NotLonger before l) : nextCode before l * 2 ^ (p.maxLen - l) = unitsUsed p before := by
  match before with
  | none => simp [nextCode, unitsUsed]
  | some (c, l') =>
    have hll : l' ≤ l := hb c l' rfl
    have hsplit : p.maxLen - l' = (l - l') + (p.maxLen - l) := by omega
    rw [nextCode, unitsUsed, Nat.shiftLeft_eq, hsplit, Nat.pow_add, Nat.mul_assoc]

/-- A code with one unit of its length left fits its length (R123). -/
theorem code_lt_of_units {m l c : Nat} (hl : l ≤ m) (h : c * 2 ^ (m - l) + 2 ^ (m - l) ≤ 2 ^ m) : c < 2 ^ l := by
  have hm : 2 ^ m = 2 ^ l * 2 ^ (m - l) := by rw [← Nat.pow_add, Nat.add_sub_cancel' hl]
  rw [hm, ← Nat.succ_mul] at h
  exact Nat.le_of_mul_le_mul_right h (Nat.two_pow_pos _)

theorem codeOf_tableSet_same (codes : Vector Code 256) (x : Symbol) {c : Nat} (h : c < 2 ^ 255) :
    codeOf (tableSet codes x (BitVec.ofNat 255 c)) x = c := by
  rw [codeOf, tableAt_set_same, BitVec.toNat_ofNat, Nat.mod_eq_of_lt h]

/-- The assignment leaves the symbols that are not in its list alone. -/
theorem assignFrom_not_mem {t : Vector Byte 256} {xs : List Symbol} {x : Symbol} (before : Option (Nat × Nat))
    (codes : Vector Code 256) (h : x ∉ xs) : codeOf (assignFrom t xs before codes) x = codeOf codes x := by
  induction xs generalizing before codes with
  | nil => rfl
  | cons z zs ih =>
    obtain ⟨hz, hzs⟩ := not_or.1 (mt List.mem_cons.2 h)
    rw [assignFrom, ih _ _ hzs, codeOf, tableAt_set_ne _ _ hz, codeOf]

/-- In a list sorted by the key whose units fit, each symbol's code begins where the units of the symbols before it
end. -/
theorem assignFrom_scaled {p : Params} {t : Vector Byte 256} {pre post : List Symbol} {x : Symbol}
    {before : Option (Nat × Nat)} (codes : Vector Code 256) (hlen : ∀ y, lenOf t y ≤ p.maxLen)
    (hsorted : (pre ++ x :: post).Pairwise (keyBefore t)) (hb : ∀ y ∈ pre ++ x :: post, NotLonger before (lenOf t y))
    (hfit : unitsUsed p before + kraftOf p t (pre ++ [x]) ≤ 2 ^ p.maxLen) :
    codeOf (assignFrom t (pre ++ x :: post) before codes) x * 2 ^ (p.maxLen - lenOf t x)
      = unitsUsed p before + kraftOf p t pre := by
  induction pre generalizing before codes with
  | nil =>
    have hx : x ∉ post := fun h =>
      have hxx := (List.pairwise_cons.1 hsorted).1 x h
      keyBefore_asymm hxx hxx
    have hscaled := nextCode_scaled (hlen x) (hb x (by simp))
    have hlt : nextCode before (lenOf t x) < 2 ^ lenOf t x := by
      refine code_lt_of_units (hlen x) ?_
      rw [hscaled]
      simpa using hfit
    have hlt255 := hlt.trans_le (Nat.pow_le_pow_right Nat.two_pos (lenOf_le t x))
    rw [List.nil_append, assignFrom, assignFrom_not_mem _ _ hx, codeOf_tableSet_same _ _ hlt255, hscaled]
    simp
  | cons z zs ih =>
    obtain ⟨hz, hrest⟩ := List.pairwise_cons.1 hsorted
    have hused : unitsUsed p (some (nextCode before (lenOf t z), lenOf t z))
        = unitsUsed p before + 2 ^ (p.maxLen - lenOf t z) := by
      rw [unitsUsed, Nat.succ_mul, nextCode_scaled (hlen z) (hb z (by simp))]
    have hb' : ∀ y ∈ zs ++ x :: post, NotLonger (some (nextCode before (lenOf t z), lenOf t z)) (lenOf t y) := by
      rintro y hy _ _ ⟨⟩
      exact keyBefore_len_le (hz y hy)
    rw [List.cons_append, assignFrom, ih _ hrest hb' (by simpa [hused, Nat.add_assoc] using hfit), hused, kraftOf_cons,
      Nat.add_assoc]

variable {p : Params} {t : Vector Byte 256}

/-- The symbols of the canonical order up to one of them take at most all units. -/
theorem kraftOf_initial_le {pre post : List Symbol} (hv : ValidTable p t) (h : canonicalOrder t = pre ++ post) :
    kraftOf p t pre ≤ 2 ^ p.maxLen := by
  have hsum : kraftOf p t (pre ++ post) ≤ 2 ^ p.maxLen := by
    rw [← h, kraftOf_canonicalOrder]
    exact hv.2
  rw [kraftOf_append] at hsum
  omega

/-- The canonical code of a symbol, shifted up to MAX_LEN bits, is the Kraft sum of the symbols before it (R121). -/
theorem canonicalCodes_scaled {pre post : List Symbol} {x : Symbol} (hv : ValidTable p t)
    (h : canonicalOrder t = pre ++ x :: post) :
    codeOf (canonicalCodes t) x * 2 ^ (p.maxLen - lenOf t x) = kraftOf p t pre := by
  obtain ⟨hsorted, -⟩ := canonicalOrder_isCanonicalOrder t
  rw [h] at hsorted
  have hfit : kraftOf p t (pre ++ [x]) ≤ 2 ^ p.maxLen := kraftOf_initial_le hv (post := post) (by simp [h])
  rw [canonicalCodes, h, assignFrom_scaled (p := p) _ hv.1 hsorted (fun _ _ => notLonger_none _) (by simpa [unitsUsed] using hfit)]
  simp [unitsUsed]

/-- R123, property 1: a canonical code fits its length. -/
theorem canonicalCodes_lt {x : Symbol} (hv : ValidTable p t) (hx : 0 < lenOf t x) :
    codeOf (canonicalCodes t) x < 2 ^ lenOf t x := by
  obtain ⟨-, hmem⟩ := canonicalOrder_isCanonicalOrder t
  obtain ⟨pre, post, h⟩ := List.append_of_mem ((hmem x).2 hx)
  refine code_lt_of_units (hv.1 x) ?_
  have := kraftOf_initial_le hv (pre := pre ++ [x]) (post := post) (by simp [h])
  rw [canonicalCodes_scaled hv h]
  simpa using this

/-- Two present symbols stand in the canonical order as their keys do. -/
theorem canonicalOrder_split {x y : Symbol} (hx : 0 < lenOf t x) (hy : 0 < lenOf t y) (hxy : keyBefore t x y) :
    ∃ pre mid post, canonicalOrder t = pre ++ x :: (mid ++ y :: post) := by
  obtain ⟨hsorted, hmem⟩ := canonicalOrder_isCanonicalOrder t
  obtain ⟨pre, post, h⟩ := List.append_of_mem ((hmem x).2 hx)
  rw [h] at hsorted
  have hmem_y : y ∈ pre ++ x :: post := h ▸ (hmem y).2 hy
  have hypre : y ∉ pre := fun hm => keyBefore_asymm hxy ((List.pairwise_append.1 hsorted).2.2 y hm x (by simp))
  have hne : y ≠ x := by
    rintro rfl
    exact keyBefore_asymm hxy hxy
  have hypost : y ∈ post := by simpa [hypre, hne] using hmem_y
  obtain ⟨mid, post, rfl⟩ := List.append_of_mem hypost
  exact ⟨pre, mid, post, h⟩

/-- A symbol later in the canonical order has a code beyond every extension of an earlier code. -/
theorem canonicalCodes_extension_le {x y : Symbol} (hv : ValidTable p t) (hx : 0 < lenOf t x) (hy : 0 < lenOf t y)
    (hxy : keyBefore t x y) :
    (codeOf (canonicalCodes t) x + 1) * 2 ^ (lenOf t y - lenOf t x) ≤ codeOf (canonicalCodes t) y := by
  obtain ⟨pre, mid, post, h⟩ := canonicalOrder_split hx hy hxy
  have hcx := canonicalCodes_scaled hv h
  have hcy := canonicalCodes_scaled hv (pre := pre ++ x :: mid) (post := post) (x := y) (by simp [h])
  have hmax := hv.1 y
  have hle := keyBefore_len_le hxy
  have hsplit : p.maxLen - lenOf t x = (lenOf t y - lenOf t x) + (p.maxLen - lenOf t y) := by omega
  refine Nat.le_of_mul_le_mul_right ?_ (Nat.two_pow_pos (p.maxLen - lenOf t y))
  calc (codeOf (canonicalCodes t) x + 1) * 2 ^ (lenOf t y - lenOf t x) * 2 ^ (p.maxLen - lenOf t y)
      = kraftOf p t pre + 2 ^ (p.maxLen - lenOf t x) := by
        rw [Nat.mul_assoc, ← Nat.pow_add, ← hsplit, Nat.succ_mul, hcx]
    _ ≤ kraftOf p t (pre ++ x :: mid) := by
        rw [kraftOf_append, kraftOf_cons]
        omega
    _ = codeOf (canonicalCodes t) y * 2 ^ (p.maxLen - lenOf t y) := hcy.symm

/-- R123, property 2, for symbols in the canonical order: the later code does not start with the earlier one. -/
theorem canonicalCodes_truncated_ne {x y : Symbol} (hv : ValidTable p t) (hx : 0 < lenOf t x) (hy : 0 < lenOf t y)
    (hxy : keyBefore t x y) :
    codeOf (canonicalCodes t) y / 2 ^ (lenOf t y - lenOf t x) ≠ codeOf (canonicalCodes t) x := by
  have := (Nat.le_div_iff_mul_le (Nat.two_pow_pos _)).2 (canonicalCodes_extension_le hv hx hy hxy)
  omega

/-- Settles O29: two codes differ in the canonical order of their symbols, and codes of equal length have it either
way round. -/
theorem builtCodesArePrefixFree : Obligations.BuiltCodesArePrefixFree := by
  intro s htab hs
  obtain ⟨hv, hcode⟩ := htab hs
  rw [hcode]
  refine ⟨fun x hx => canonicalCodes_lt hv hx, fun x y hx hy hne hle => ?_⟩
  have hnat : x.toNat ≠ y.toNat := fun e => hne (BitVec.eq_of_toNat_eq e)
  have hkey : keyBefore s.len x y ∨ (lenOf s.len x = lenOf s.len y ∧ keyBefore s.len y x) := by
    unfold keyBefore
    omega
  rcases hkey with hxy | ⟨heq, hyx⟩
  · exact canonicalCodes_truncated_ne hv hx hy hxy
  · have := canonicalCodes_truncated_ne hv hy hx hyx
    simp only [heq, Nat.sub_self, Nat.pow_zero, Nat.div_one] at this ⊢
    exact this.symm

end Sys2Proof.Machine
end

section
/-! SUPPORT. What each command can do to the state, said once (`Footprint`), and what every engine step leaves alone on
the host's side. -/

namespace Sys2Proof.Machine

/-! ### Reading moves BRPOS only -/

/-- The GETBITS loop moves BRPOS by the number of its bits, and nothing else (R133, R139). -/
theorem getBits_state (n v : Nat) (s : State) :
    (getBits n v s).2 = s.setBrpos (s.brpos + BitVec.ofNat 32 n) := by
  induction n generalizing v s with
  | zero =>
    show s = s.setBrpos (s.brpos + 0#32)
    rw [BitVec.add_zero]
    rfl
  | succ n ih =>
    rw [getBits, ih, Nat.add_comm n 1, BitVec.ofNat_add, ← BitVec.add_assoc]
    rfl

/-- `DecodeSym` moves BRPOS and nothing else, whether it finds a symbol or raises (R160). -/
theorem decodeLoop_state (k fuel l v : Nat) (s : State) : ∃ b, (decodeLoop k fuel l v s).state = s.setBrpos b := by
  induction fuel generalizing l v s with
  | zero => exact ⟨s.brpos, rfl⟩
  | succ fuel ih =>
    rw [decodeLoop]
    split
    · exact ⟨s.brpos, rfl⟩
    · dsimp only
      split
      · exact ⟨_, rfl⟩
      · split
        · exact ih _ _ (getBit s).2
        · exact ⟨_, rfl⟩

/-! ### Encoding leaves BRPOS -/

theorem putBits_brpos (p : Params) (n v : Nat) (s : State) : (putBits p n v s).state.brpos = s.brpos := by
  induction n generalizing s with
  | zero => rfl
  | succ n ih =>
    exact Result.bind_state (P := fun t => t.brpos = s.brpos) (putBit_brpos p _ s) fun _ t _ ht => (ih t).trans ht

theorem encodeSym_brpos (p : Params) (k : Nat) (x : Symbol) (s : State) :
    (encodeSym p k x s).state.brpos = s.brpos := by
  unfold encodeSym
  split
  · rfl
  · exact putBits_brpos p _ _ s

theorem encodeFrom_brpos (p : Params) (n k : Nat) (s : State) : (encodeFrom p n k s).state.brpos = s.brpos := by
  induction n generalizing k s with
  | zero => rfl
  | succ n ih =>
    exact Result.bind_state (P := fun t => t.brpos = s.brpos) (encodeSym_brpos p k _ s) fun _ t _ ht =>
      (ih (k + 1) t).trans ht

/-! ### The footprint of a command's rule -/

/-- What a command's rule can do to the state, whether it runs to its end or raises: which registers, tables and bytes
it may write, and how the writer and OBUF move together. -/
def Footprint (s t : State) : Instr → Prop
  | .nop => t = s
  | .clrerr => ∃ e info, t = s.setError e info
  | .fclr | .facc _ | .fscan => ∃ freq ftotal fovf, t = s.setCounts freq ftotal fovf
  | .tbuild => t = s ∨ ∃ code, t = s.setTable code
  | .bwreset => t = (s.setWriter 0 0 0).setPad 0
  | .putbits _ _ | .encsym _ | .encode => StreamFrame Config.params s t ∧ t.brpos = s.brpos
  | .flush => ∃ u pad, StreamFrame Config.params s u ∧ u.brpos = s.brpos ∧ t = u.setPad pad
  | .brreset => t = s.setBrpos 0
  | .getbits _ | .decsym => ∃ brpos rdata, t = (s.setBrpos brpos).setRdata rdata
  | .decode | .decall => ∃ u rdata, StreamFrame Config.params s u ∧ t = u.setRdata rdata

/-- A completed byte at OPTR, inside OBUF, is within the writer's frame (R130, R137). -/
theorem completeByte_frame {p : Params} {s : State} (b : Byte) (h : s.optr.toNat < p.obufBytes) :
    StreamFrame p s ((s.putObuf s.optr.toNat b).setWriter (s.optr + 1) 0 0) := by
  have e := optr_succ h
  refine ⟨rfl, ?_, .inr ?_, fun k hk => ?_, Memory.write_wf _ _, Memory.write_inside _ h, ?_, le_max_left _ _⟩
  · simp only [State.setWriter_optr]
    omega
  · simp only [State.setWriter_optr]
    omega
  · simp only [State.setWriter_optr] at hk
    exact State.obufByte_putObuf_ne _ _ (by omega)
  · simp

theorem flushRule_footprint (s : State) : Footprint s (flushRule Config.params s).state .flush := by
  unfold flushRule
  split
  · split
    · exact ⟨s, s.pad, StreamFrame.refl _ s, rfl, rfl⟩
    · exact ⟨_, _, completeByte_frame _ (by omega), rfl, rfl⟩
  · exact ⟨s, 0, StreamFrame.refl _ s, rfl, rfl⟩

theorem checkReader_state (p : Params) (s : State) : (checkReader p s).state = s := by
  unfold checkReader
  split <;> rfl

theorem checkDecoder_state (p : Params) (s : State) : (checkDecoder p s).state = s := by
  unfold checkDecoder checkTable
  split
  · rfl
  · exact checkReader_state p s

/-- After a check that leaves the state alone a rule is in the state it began with. -/
theorem Result.bind_check {α β : Type} {P : State → Prop} {s : State} {r : Result α} {f : α → State → Result β}
    (hr : r.state = s) (hs : P s) (hf : ∀ a, P (f a s).state) : P (r.bind f).state := by
  subst hr
  exact Result.bind_state hs fun a t h _ => by simpa [h] using hf a

theorem ruleOf_footprint (i : Instr) (s : State) : Footprint s (ruleOf i s).state i := by
  have hrefl := StreamFrame.refl Config.params s
  cases i with
  | nop | bwreset | brreset => rfl
  | clrerr => exact ⟨_, _, rfl⟩
  | fclr | facc => exact ⟨_, _, _, rfl⟩
  | fscan =>
    exact Result.bind_check (P := (Footprint s · .fscan)) (checkInputRange_state _ s) ⟨s.freq, s.ftotal, s.fovf, rfl⟩
      fun _ => incRange_frame _ _ s
  | tbuild =>
    show Footprint s (tbuildRule Config.params s).state .tbuild
    unfold tbuildRule
    split
    · exact .inl rfl
    · split
      · exact .inl rfl
      · exact .inr ⟨_, rfl⟩
  | putbits nb val => exact ⟨putBits_frame _ _ _ s, putBits_brpos _ _ _ s⟩
  | flush => exact flushRule_footprint s
  | getbits nb =>
    refine Result.bind_check (P := (Footprint s · (.getbits nb))) (checkReader_state _ s) ⟨s.brpos, s.rdata, rfl⟩
      fun _ => ?_
    split
    · exact ⟨s.brpos, s.rdata, rfl⟩
    · exact ⟨_, _, congrArg (State.setRdata · _) (getBits_state nb.toNat 0 s)⟩
  | encsym sym =>
    exact Result.bind_check (P := (Footprint s · (.encsym sym))) (checkTable_state s) ⟨hrefl, rfl⟩
      fun _ => ⟨encodeSym_frame _ 0 sym s, encodeSym_brpos _ 0 sym s⟩
  | encode =>
    exact Result.bind_check (P := (Footprint s · .encode)) (checkTable_state s) ⟨hrefl, rfl⟩ fun _ =>
      Result.bind_check (P := (Footprint s · .encode)) (checkInputRange_state _ s) ⟨hrefl, rfl⟩
        fun _ => ⟨encodeFrom_frame _ _ 0 s, encodeFrom_brpos _ _ 0 s⟩
  | decsym =>
    refine Result.bind_check (P := (Footprint s · .decsym)) (checkDecoder_state _ s) ⟨s.brpos, s.rdata, rfl⟩
      fun _ => ?_
    obtain ⟨b, h⟩ := decodeLoop_state 0 255 0 0 s
    exact Result.bind_state (P := (Footprint s · .decsym)) ⟨b, s.rdata, h⟩
      fun x t ht _ => ⟨b, _, congrArg (State.setRdata · _) ((congrArg Result.state ht).symm.trans h)⟩
  | decode =>
    refine Result.bind_check (P := (Footprint s · .decode)) (checkDecoder_state _ s) ⟨s, s.rdata, hrefl, rfl⟩
      fun _ => ?_
    have h := decodeFrom_frame Config.params s.dcnt.toNat 0 s
    exact Result.bind_state (P := (Footprint s · .decode)) ⟨_, _, h, rfl⟩
      fun _ t ht _ => ⟨t, _, by simpa [ht] using h, rfl⟩
  | decall =>
    refine Result.bind_check (P := (Footprint s · .decall)) (checkDecoder_state _ s) ⟨s, s.rdata, hrefl, rfl⟩
      fun _ => ?_
    have h := decodeAllFrom_frame Config.params (s.limit - s.brpos.toNat) 0 s
    exact Result.bind_state (P := (Footprint s · .decall)) ⟨_, _, h, rfl⟩
      fun _ t ht _ => ⟨t, _, by simpa [ht] using h, rfl⟩

/-- Everything a command's step can do (R180): end in a state within its footprint, or take a listed error in one. -/
theorem exec_cases {i : Instr} {s t : State} (h : exec i s = .next t) :
    ∃ u, Footprint s u i
      ∧ (t = u.complete ∨ ∃ e info, e ∈ mayRaise i ∧ t = (takeError e info s u).complete) := by
  rw [exec_eq] at h
  cases h
  have hf := ruleOf_footprint i s
  refine ⟨_, hf, ?_⟩
  rcases runCommand_cases (ruleOf i) s with ⟨u, hr, hc⟩ | ⟨e, info, u, hr, hc⟩ <;> rw [hc, hr]
  · exact .inl rfl
  · exact .inr ⟨e, info, ruleOf_raisesOnly s i e info u hr, rfl⟩

/-! ### The host's side -/

/-- The host's side of the state: the state without what the engine writes (R24, R35, R39, R40, R43, R46, R48). -/
def State.hostSide (s : State) : State :=
  { s.streamless with
    busy := false, done := false, tvalid := false, fovf := false, errCode := .noError, errInfo := 0, rdata := 0
    pad := 0, ftotal := 0, freq := Vector.replicate 256 0, code := Vector.replicate 256 0, draws := 0 }

/-- Two states have the same host's side exactly if they agree on each of its fields. -/
theorem State.hostSide_eq_iff {s t : State} : t.hostSide = s.hostSide ↔
    t.ie = s.ie ∧ t.iptr = s.iptr ∧ t.icnt = s.icnt ∧ t.brlen = s.brlen ∧ t.brpad = s.brpad ∧ t.dcnt = s.dcnt
    ∧ t.tsel = s.tsel ∧ t.len = s.len ∧ t.ibuf = s.ibuf ∧ t.pending = s.pending ∧ t.inputs = s.inputs
    ∧ t.responses = s.responses ∧ t.epoch = s.epoch := by
  simp [State.hostSide, State.streamless]

theorem StreamFrame.hostSide {p : Params} {s t : State} (h : StreamFrame p s t) : t.hostSide = s.hostSide := by
  show t.streamless.hostSide = s.streamless.hostSide
  rw [h.same]

theorem Footprint.hostSide {s t : State} {i : Instr} (h : Footprint s t i) : t.hostSide = s.hostSide := by
  cases i with
  | nop | bwreset | brreset =>
    obtain rfl := h
    rfl
  | clrerr | getbits | decsym =>
    obtain ⟨_, _, rfl⟩ := h
    rfl
  | fclr | facc | fscan =>
    obtain ⟨_, _, _, rfl⟩ := h
    rfl
  | tbuild => rcases h with rfl | ⟨_, rfl⟩ <;> rfl
  | putbits | encsym | encode => exact h.1.hostSide
  | flush =>
    obtain ⟨u, _, hu, -, rfl⟩ := h
    exact hu.hostSide
  | decode | decall =>
    obtain ⟨u, _, hu, rfl⟩ := h
    exact hu.hostSide

theorem exec_hostSide {i : Instr} {s t : State} (h : exec i s = .next t) : t.hostSide = s.hostSide := by
  obtain ⟨u, hf, rfl | ⟨e, info, -, rfl⟩⟩ := exec_cases h
  · exact hf.hostSide
  · rfl

/-- No engine step writes the host's side, also where it refuses the command or its word is illegal (R180). -/
theorem engineStep_hostSide {s t : State} (h : engineStep s = .next t) : t.hostSide = s.hostSide := by
  rcases engineStep_cases s with ⟨-, -, k⟩ | ⟨-, ⟨i, -, k⟩ | ⟨-, -, k⟩⟩ <;> rw [k] at h
  · cases h
    rfl
  · exact exec_hostSide h
  · cases h
    rfl

/-! ### Completion -/

theorem exec_completes (i : Instr) (s : State) : ∃ u : State, exec i s = .next u.complete := by
  rw [exec_eq]
  rcases runCommand_cases (ruleOf i) s with ⟨u, -, hc⟩ | ⟨e, info, u, -, hc⟩ <;> exact ⟨_, congrArg _ hc⟩

/-- Every engine step ends by completing the command (R180). -/
theorem engineStep_completes (s : State) : ∃ u : State, engineStep s = .next u.complete := by
  rcases engineStep_cases s with ⟨-, -, k⟩ | ⟨-, ⟨i, -, k⟩ | ⟨-, -, k⟩⟩ <;> rw [k]
  · exact ⟨s, rfl⟩
  · exact exec_completes i s
  · exact ⟨s.setError .badCommand s.pending, rfl⟩

/-! ### Which commands change what -/

/-- The registers, tables and bytes that only some commands change, with the commands that do. -/
structure Frame (s t : State) (i : Instr) : Prop where
  counts : i = .fclr ∨ i = .fscan ∨ (∃ x, i = .facc x)
    ∨ (t.freq = s.freq ∧ t.ftotal = s.ftotal ∧ t.fovf = s.fovf)
  table : i = .tbuild ∨ (t.code = s.code ∧ t.tvalid = s.tvalid)
  tvalid : s.tvalid = true → t.tvalid = true
  writer : i = .bwreset ∨ (∃ n v, i = .putbits n v) ∨ i = .flush ∨ (∃ x, i = .encsym x) ∨ i = .encode ∨ i = .decode
    ∨ i = .decall ∨ (t.optr = s.optr ∧ t.bwacc = s.bwacc ∧ t.bwcnt = s.bwcnt ∧ t.obuf = s.obuf)
  pad : i = .bwreset ∨ i = .flush ∨ t.pad = s.pad
  bwreset : i = .bwreset → t.obuf = s.obuf
  brpos : i = .brreset ∨ (∃ n, i = .getbits n) ∨ i = .decsym ∨ i = .decode ∨ i = .decall ∨ t.brpos = s.brpos
  rdata : (∃ n, i = .getbits n) ∨ i = .decsym ∨ i = .decode ∨ i = .decall ∨ t.rdata = s.rdata

/-- The loops of the writer and the reader leave the counters, the table, PAD and RDATA alone. -/
theorem StreamFrame.kept {p : Params} {s t : State} (h : StreamFrame p s t) :
    (t.freq = s.freq ∧ t.ftotal = s.ftotal ∧ t.fovf = s.fovf) ∧ (t.code = s.code ∧ t.tvalid = s.tvalid)
    ∧ t.pad = s.pad ∧ t.rdata = s.rdata := by
  rw [State.eq_of_streamless h.same]
  simp

theorem Footprint.frame {i : Instr} {s t : State} (h : Footprint s t i) : Frame s t i := by
  cases i with
  | nop | bwreset | brreset =>
    obtain rfl := h
    constructor <;> simp
  | clrerr | getbits | decsym =>
    obtain ⟨_, _, rfl⟩ := h
    constructor <;> simp
  | fclr | facc | fscan =>
    obtain ⟨_, _, _, rfl⟩ := h
    constructor <;> simp
  | tbuild => rcases h with rfl | ⟨_, rfl⟩ <;> constructor <;> simp
  | putbits | encsym | encode =>
    obtain ⟨ht, hbrpos⟩ := h
    constructor <;> simp [ht.kept, hbrpos]
  | flush =>
    obtain ⟨u, _, hu, hbrpos, rfl⟩ := h
    constructor <;> simp [hu.kept, hbrpos]
  | decode | decall =>
    obtain ⟨u, _, hu, rfl⟩ := h
    constructor <;> simp [hu.kept]

/-- Taking an error rolls back what the rule did, and OBUF is as before if the rule left OPTR alone (R181). -/
theorem Frame.takeError {i : Instr} {s u : State} {e : ErrCode} (info : Word) (h : Frame s u i)
    (he : e ∈ mayRaise i) : Frame s (takeError e info s u) i where
  counts := .inr (.inr (.inr ⟨rfl, rfl, rfl⟩))
  table := .inr ⟨rfl, rfl⟩
  tvalid := id
  writer := by
    refine h.writer.imp_right <| .imp_right <| .imp_right <| .imp_right <| .imp_right <| .imp_right <|
      .imp_right fun ⟨hoptr, _⟩ => ?_
    simp [takeError_of_optr hoptr]
  pad := .inr (.inr rfl)
  bwreset := by
    rintro rfl
    cases he
  brpos := .inr (.inr (.inr (.inr (.inr rfl))))
  rdata := .inr (.inr (.inr (.inr rfl)))

/-- Every command's step keeps the frame, whether it succeeds or fails. -/
theorem exec_frame {i : Instr} {s t : State} (h : exec i s = .next t) : Frame s t i := by
  obtain ⟨u, hf, rfl | ⟨e, info, he, rfl⟩⟩ := exec_cases h
  · exact { hf.frame with }
  · exact { hf.frame.takeError info he with }

/-- A rule stores to OBUF only from its OPTR up to its final OPTR (R49, R207), and only BWRESET moves OPTR down. -/
theorem Footprint.stores {i : Instr} {s t : State} (h : Footprint s t i) :
    (∀ k, k < s.optr.toNat ∨ t.optr.toNat ≤ k → t.obufByte k = s.obufByte k)
    ∧ (i = .bwreset ∨ s.optr.toNat ≤ t.optr.toNat) := by
  obtain ⟨-, -, -, -, -, -, -, -, -, -, -, -, hepoch⟩ := State.hostSide_eq_iff.1 h.hostSide
  cases i with
  | putbits | encsym | encode => exact ⟨h.1.bytes, .inr h.1.mono⟩
  | flush =>
    obtain ⟨u, _, hu, -, rfl⟩ := h
    exact ⟨hu.bytes, .inr hu.mono⟩
  | decode | decall =>
    obtain ⟨u, _, hu, rfl⟩ := h
    exact ⟨hu.bytes, .inr hu.mono⟩
  | bwreset => exact ⟨fun k _ => State.obufByte_congr (h.frame.bwreset rfl) hepoch k, .inl rfl⟩
  | nop | clrerr | fclr | facc | fscan | tbuild | brreset | getbits | decsym =>
    obtain ⟨hoptr, -, -, hobuf⟩ : t.optr = s.optr ∧ t.bwacc = s.bwacc ∧ t.bwcnt = s.bwcnt ∧ t.obuf = s.obuf := by
      simpa using h.frame.writer
    exact ⟨fun k _ => State.obufByte_congr hobuf hepoch k, .inr (hoptr ▸ le_rfl)⟩

end Sys2Proof.Machine
end

section
/-! PROOFS. What no command, and what only some commands, change (spec/10_state.md R24-R49); every engine step
completes. -/

namespace Sys2Proof.Machine

/-- Settles O9: the turn is an engine step, which completes, and writes nothing of the host's side. -/
theorem everyEngineStepCompletes : Obligations.EveryEngineStepCompletes := by
  intro s rest hturn
  obtain ⟨-, -, hstep⟩ := stepTakesTheFirstScriptEntry s rest
  obtain ⟨u, hu⟩ := engineStep_completes { s with inputs := rest }
  obtain ⟨hie, -, -, -, -, -, -, -, -, -, hin, hresp, hepoch⟩ := State.hostSide_eq_iff.1 (engineStep_hostSide hu)
  have hirq : u.complete.irq = s.ie := (Bool.and_true _).trans hie
  exact ⟨u.complete, (hstep hturn).trans hu, rfl, rfl, hirq, hie, hin, hresp, hepoch⟩

/-- Settles O48: the fields named are the host's side. -/
theorem noCommandWritesHostRegisters : Obligations.NoCommandWritesHostRegisters :=
  fun _ _ _ h => State.hostSide_eq_iff.1 (exec_hostSide h)

/-- Settles O49: part of the frame of a command's step. -/
theorem countersAndTableChangeOnlyByTheirCommands : Obligations.CountersAndTableChangeOnlyByTheirCommands := by
  intro i s t h
  have hf := exec_frame h
  exact ⟨hf.counts, hf.table, hf.tvalid⟩

/-- Settles O50: part of the frame of a command's step. -/
theorem writerChangesOnlyByItsCommands : Obligations.WriterChangesOnlyByItsCommands := by
  intro i s t h
  have hf := exec_frame h
  exact ⟨hf.writer, hf.pad, hf.bwreset⟩

/-- Settles O51: part of the frame of a command's step. -/
theorem readerChangesOnlyByItsCommands : Obligations.ReaderChangesOnlyByItsCommands := by
  intro i s t h
  have hf := exec_frame h
  exact ⟨hf.brpos, hf.rdata⟩

/-- Settles O52: a command that records no error ran its rule to the end, within the rule's footprint. -/
theorem successfulCommandStoresOnlyFromOptr : Obligations.SuccessfulCommandStoresOnlyFromOptr := by
  intro i s t _ h ht
  obtain ⟨u, hf, rfl | ⟨e, info, he, rfl⟩⟩ := exec_cases h
  · exact hf.stores
  · obtain rfl : e = .noError := ht
    exact absurd he (noError_not_mem_mayRaise i)

end Sys2Proof.Machine
end

section
/-! SUPPORT. Host accesses by offset: what the address map names at the offset of each register and window word, what a
read or a write there does, and the fields of the words that cross the bus (spec/10_state.md R21-R49, R63, R66). -/

namespace Sys2Proof.Machine

/-! ### The address map -/

/-- Target `tg` stands at the aligned offset `o` of the window (R21). -/
def MappedAt (p : Params) (o : Nat) (tg : Target) : Prop := o < 0x40000 ∧ o % 4 = 0 ∧ targetAt p o = some tg

theorem mappedAt_freq (p : Params) {x : Nat} (h : x < 256) : MappedAt p (0x400 + 4 * x) (.freq (BitVec.ofNat 8 x)) := by
  refine ⟨by omega, by omega, ?_⟩
  have hx : (0x400 + 4 * x - 0x400) / 4 = x := by omega
  rw [targetAt, if_neg (by omega), if_neg (by omega), if_pos (by omega), hx]

theorem mappedAt_lentab (p : Params) {w : Nat} (h : w < 64) : MappedAt p (0x800 + 4 * w) (.lentab w) := by
  refine ⟨by omega, by omega, ?_⟩
  have hw : (0x800 + 4 * w - 0x800) / 4 = w := by omega
  rw [targetAt, if_neg (by omega), if_neg (by omega), if_neg (by omega), if_pos (by omega), hw]

theorem mappedAt_tcode (p : Params) {k : Nat} (h : k < 8) : MappedAt p (0x050 + 4 * k) (.tcode k) := by
  refine ⟨by omega, by omega, ?_⟩
  have hk : (0x050 + 4 * k) / 4 = k + 20 := by omega
  rw [targetAt, if_pos (by omega), hk]
  exact if_pos h

/-- An access of four bytes to a mapped offset is accepted, unless BUSY = 1 closes its target (R62, R64). -/
theorem acceptedTarget_of_mappedAt {p : Params} {s : State} {o : Nat} {tg : Target} (kind : AccessKind) (d : Word)
    (h : MappedAt p o tg) (hb : s.busy = false ∨ allowedWhileBusy kind tg = true) :
    acceptedTarget p s ⟨kind, BitVec.ofNat 18 o, 4, d⟩ = some tg := by
  obtain ⟨hlt, halign, htarget⟩ := h
  have ho : (BitVec.ofNat 18 o).toNat = o := by
    rw [BitVec.toNat_ofNat]
    exact Nat.mod_eq_of_lt hlt
  refine acceptedTarget_eq_some.2 ⟨rfl, ho.symm ▸ halign, ho.symm ▸ htarget, ?_⟩
  rcases hb with hb | hb <;> simp [hb]

/-- An accepted read returns the target's word and has no effect (R63). -/
theorem hostAccess_read {p : Params} {s : State} {o : Nat} {tg : Target} (h : MappedAt p o tg)
    (hb : s.busy = false ∨ allowedWhileBusy .read tg = true) :
    hostAccess p (readAt o) s = (.readData (readTarget p s tg), s) := by
  unfold hostAccess
  rw [readAt, acceptedTarget_of_mappedAt .read 0 h hb]

/-- An accepted write has the target's effect (R63). -/
theorem hostAccess_write {p : Params} {s : State} {o : Nat} {tg : Target} (d : Word) (h : MappedAt p o tg)
    (hb : s.busy = false ∨ allowedWhileBusy .write tg = true) :
    hostAccess p (writeAt o d) s = (.writeDone, writeTarget d s tg) := by
  unfold hostAccess
  rw [writeAt, acceptedTarget_of_mappedAt .write d h hb]

/-- The register file: every register's offset (R21). -/
def registerFile : List (Nat × Target) :=
  [(0x000, .id), (0x004, .ibufsz), (0x008, .obufsz), (0x00C, .maxlen), (0x010, .ctrl), (0x014, .status),
    (0x018, .cmd), (0x01C, .errinfo), (0x020, .rdata), (0x024, .iptr), (0x028, .icnt), (0x02C, .optr),
    (0x030, .bwstate), (0x034, .brpos), (0x038, .brlen), (0x03C, .brpad), (0x040, .dcnt), (0x044, .ftotal),
    (0x048, .fdist), (0x04C, .tsel), (0x050, .tcode 0), (0x054, .tcode 1), (0x058, .tcode 2), (0x05C, .tcode 3),
    (0x060, .tcode 4), (0x064, .tcode 5), (0x068, .tcode 6), (0x06C, .tcode 7)]

theorem mappedAt_registerFile (p : Params) : ∀ r ∈ registerFile, MappedAt p r.1 r.2 := by
  intro r hr
  fin_cases hr <;> exact ⟨by decide, rfl, rfl⟩

/-- While BUSY = 0 each register reads as its word, without an effect (R63). -/
theorem hostAccess_read_registers {p : Params} {s : State} (hb : s.busy = false) :
    ∀ e ∈ registerFile.map fun r => (r.1, readTarget p s r.2),
      hostAccess p (readAt e.1) s = (.readData e.2, s) := by
  intro e he
  obtain ⟨r, hr, rfl⟩ := List.mem_map.1 he
  exact hostAccess_read (mappedAt_registerFile p r hr) (.inl hb)

/-- The registers that read as a word of their own fields: all but STATUS (R25) and the window TCODE on CODE (R44). -/
def Target.isPlain : Target → Bool
  | .status | .tcode _ => false
  | _ => true

/-- The registers and the window that the host can only read (R21). -/
def Target.readOnly : Target → Bool
  | .id | .ibufsz | .obufsz | .maxlen | .errinfo | .rdata | .optr | .bwstate | .brpos | .ftotal | .fdist | .tcode _
  | .freq _ => true
  | _ => false

/-- A read-only target ignores writes (R63). -/
theorem writeTarget_readOnly {tg : Target} (d : Word) (s : State) (h : tg.readOnly = true) :
    writeTarget d s tg = s := by
  cases tg with
  | ctrl | status | cmd | iptr | icnt | brlen | brpad | dcnt | tsel | lentab | ibufWord | obufWord => cases h
  | _ => rfl

/-! ### The fields of a word -/

/-- A concatenation as a number: the low part stands below the high part. -/
theorem toNat_append_eq_add {m n : Nat} (x : BitVec m) (y : BitVec n) :
    (x ++ y).toNat = x.toNat * 2 ^ n + y.toNat := by
  rw [BitVec.toNat_append, ← Nat.shiftLeft_add_eq_or_of_lt y.isLt, Nat.shiftLeft_eq]

theorem lane_toNat (d : Word) (j : Nat) : (lane d j).toNat = d.toNat / 2 ^ (8 * j) % 256 := by
  rw [lane, BitVec.extractLsb'_toNat, Nat.shiftRight_eq_div_pow]

/-- The bytes of a packed host word, entry 0 in the lowest lane (R66). -/
theorem packLanes_lane (b : Nat → Byte) {j : Nat} (h : j < 4) :
    (packLanes (b 0) (b 1) (b 2) (b 3)).toNat / 2 ^ (8 * j) % 256 = (b j).toNat := by
  have h0 := (b 0).isLt
  have h1 := (b 1).isLt
  have h2 := (b 2).isLt
  have h3 := (b 3).isLt
  simp only [packLanes, toNat_append_eq_add]
  interval_cases j <;> omega

/-- The word CTRL reads as is IE in bit 0 (R24). -/
theorem ctrlWord_eq_ite (ie : Bool) : (0#31 ++ BitVec.ofBool ie : Word) = if ie then 1#32 else 0#32 := by
  cases ie <;> rfl

theorem bwstateWord_eq_ofNat (s : State) :
    s.bwstateWord = BitVec.ofNat 32 (s.pad.toNat * 2 ^ 16 + s.bwcnt.toNat * 2 ^ 8 + s.bwacc.toNat) := by
  have hpad := s.pad.isLt
  have hcnt := s.bwcnt.isLt
  have hacc := s.bwacc.isLt
  apply BitVec.eq_of_toNat_eq
  simp only [State.bwstateWord, toNat_append_eq_add, BitVec.toNat_ofNat]
  omega

/-- FDIST as a number: the symbols in increasing order are the indices of FREQ (R42). -/
theorem fdistWord_eq_card (s : State) :
    s.fdistWord = BitVec.ofNat 32 (Finset.univ.filter fun x : Fin 256 => s.freq[x] ≠ 0).card := by
  have hentry (x : Fin 256) : tableAt s.freq (BitVec.ofNat 8 x) = s.freq[x] := by
    simp [tableAt]
  have hcount : Finset.card {x : Fin 256 | s.freq[x] ≠ 0} = (List.finRange 256).countP (s.freq[·] ≠ 0) := by
    rw [Finset.card_def, Finset.filter_val, ← Multiset.countP_eq_card_filter, Fin.univ_def, Multiset.coe_countP]
  rw [State.fdistWord, symbols, ← List.map_coe_finRange_eq_range, List.map_map, List.countP_map, hcount]
  simp only [Function.comp_def, hentry]

theorem fdistWord_of_replicate {s : State} (h : s.freq = Vector.replicate 256 0) : s.fdistWord = 0 := by
  simp [State.fdistWord, h]

/-- The bits STATUS reads as, as a number (R25). -/
theorem statusWord_toNat (s : State) :
    s.statusWord.toNat = s.errCode.bits.toNat * 2 ^ 8 + s.breof.toNat * 2 ^ 5 + s.fovf.toNat * 2 ^ 4
      + s.tvalid.toNat * 2 ^ 3 + s.err.toNat * 2 ^ 2 + s.done.toNat * 2 + s.busy.toNat := by
  simp only [State.statusWord, toNat_append_eq_add, BitVec.toNat_ofBool, BitVec.toNat_ofNat]
  omega

/-- BREOF says that BRPOS has reached the limit, which in integers needs no maximum with 0 (R31, R132). -/
theorem breof_iff (s : State) : s.breof = true ↔ (8 * s.brlen.toNat : Int) - s.brpad.toNat ≤ s.brpos.toNat := by
  rw [State.breof, decide_eq_true_iff, State.limit]
  omega

theorem getLsbD_of_toNat {w : Word} {i : Nat} {b : Bool} (h : w.toNat / 2 ^ i % 2 = b.toNat) : w.getLsbD i = b := by
  rw [← BitVec.testBit_toNat, Nat.testBit_eq_decide_div_mod_eq, h]
  cases b <;> rfl

/-! ### The state after a reset -/

/-- The reset state and the state after a reset in any state are the same but for the model's own fields. -/
theorem afterReset_eq {t : State} (ht : t = State.reset ∨ ∃ s, t = resetFrom s) :
    ∃ inputs responses epoch draws, t = { State.reset with inputs, responses, epoch, draws } := by
  rcases ht with rfl | ⟨s, rfl⟩ <;> exact ⟨_, _, _, _, rfl⟩

/-- After a reset STATUS shows BREOF and nothing else: the empty stream is at its limit (R31, R53). -/
theorem afterReset_statusWord (inputs : List Input) (responses : List Response) (epoch draws : Nat) :
    State.statusWord { State.reset with inputs, responses, epoch, draws } = 0x20#32 := by
  apply BitVec.eq_of_toNat_eq
  rw [statusWord_toNat]
  simp [State.reset, State.breof, State.limit, State.err, ErrCode.bits]

/-! ### LENTAB -/

/-- The entry of word `w` in lane `j` (R46). -/
theorem eq_lentabSymbol_iff {w j : Nat} {x : Symbol} (hw : w < 64) (hj : j < 4) :
    x = lentabSymbol w j ↔ x.toNat = 4 * w + j := by
  rw [lentabSymbol, ← BitVec.toNat_inj, BitVec.toNat_ofNat, Nat.mod_eq_of_lt (by omega)]

theorem tableAt_tableSet {α : Type} (t : Vector α 256) (x y : Symbol) (v : α) :
    tableAt (tableSet t x v) y = if y = x then v else tableAt t y := by
  split
  · rename_i h
    rw [h, tableAt_set_same]
  · rename_i h
    rw [tableAt_set_ne _ _ h]

/-- A LENTAB word written replaces its own four entries by its lanes and no other entry (R46). -/
theorem tableAt_writeLengths (t : Vector Byte 256) {w : Nat} (d : Word) (x : Symbol) (hw : w < 64) :
    tableAt (writeLengths t w d) x = if x.toNat / 4 = w then lane d (x.toNat % 4) else tableAt t x := by
  simp only [writeLengths, tableAt_tableSet, eq_lentabSymbol_iff hw (show 0 < 4 by decide),
    eq_lentabSymbol_iff hw (show 1 < 4 by decide), eq_lentabSymbol_iff hw (show 2 < 4 by decide),
    eq_lentabSymbol_iff hw (show 3 < 4 by decide)]
  have hx := Nat.div_add_mod x.toNat 4
  have hlane := Nat.mod_lt x.toNat (show 0 < 4 by decide)
  by_cases h : x.toNat / 4 = w
  · rw [if_pos h]
    rw [h] at hx
    generalize x.toNat % 4 = j at hx hlane
    rw [← hx]
    interval_cases j <;> simp
  · have hne (j : Nat) (hj : j < 4) : x.toNat ≠ 4 * w + j := by omega
    have hne0 : x.toNat ≠ 4 * w := by omega
    simp [h, hne, hne0]

/-- The four entries of a LENTAB word after a write are its bytes (R46, R66). -/
theorem lenOf_writeLengths_lane (t : Vector Byte 256) {w j : Nat} (d : Word) (hw : w < 64) (hj : j < 4) :
    lenOf (writeLengths t w d) (lentabSymbol w j) = d.toNat / 2 ^ (8 * j) % 256 := by
  have hx := (eq_lentabSymbol_iff hw hj).1 rfl
  have hdiv : (4 * w + j) / 4 = w := by omega
  have hmod : (4 * w + j) % 4 = j := by omega
  rw [lenOf, tableAt_writeLengths t d _ hw, hx, if_pos hdiv, hmod, lane_toNat]

theorem lenOf_writeLengths_other (t : Vector Byte 256) {w : Nat} (d : Word) {x : Symbol} (hw : w < 64)
    (hx : x.toNat / 4 ≠ w) : lenOf (writeLengths t w d) x = lenOf t x := by
  rw [lenOf, tableAt_writeLengths t d _ hw, if_neg hx, lenOf]

/-! ### TCODE -/

/-- A symbol without a code has code 0 in the canonical table (R121). -/
theorem codeOf_canonicalCodes_absent {t : Vector Byte 256} {x : Symbol} (h : lenOf t x = 0) :
    codeOf (canonicalCodes t) x = 0 := by
  obtain ⟨-, hmem⟩ := canonicalOrder_isCanonicalOrder t
  have hx : x ∉ canonicalOrder t := fun hx => ((hmem x).1 hx).ne' h
  rw [canonicalCodes, assignFrom_not_mem _ _ hx, codeOf, tableAt_replicate]
  rfl

/-- TCODEk while TVALID = 1, as a number (R44). -/
theorem tcodeWord_toNat {s : State} (k : Nat) (h : s.tvalid = true) :
    (s.tcodeWord k).toNat = codeOf s.code s.tsel / 2 ^ (32 * k) % 2 ^ 32 := by
  have hcode := (tableAt s.code s.tsel).isLt
  rw [State.tcodeWord, if_pos h, BitVec.extractLsb'_toNat, Nat.shiftRight_eq_div_pow, BitVec.toNat_setWidth,
    Nat.mod_eq_of_lt (hcode.trans (by decide)), codeOf]

theorem tcodeWord_of_not_tvalid {s : State} (k : Nat) (h : s.tvalid = false) : s.tcodeWord k = 0 :=
  if_neg (by simp [h])

end Sys2Proof.Machine
end

section
/-! PROOFS. The registers and windows as the host reads and writes them, the interrupt output, and the reset values
(spec/10_state.md R21-R53). -/

namespace Sys2Proof.Machine

/-- Settles O18: the read packs the word's entries, the write is `writeLengths` and clears TVALID. -/
theorem lentabWriteReplacesFourEntries : Obligations.LentabWriteReplacesFourEntries := by
  intro s w d hw hb
  have hmap := mappedAt_lentab Config.params hw
  refine ⟨_, hostAccess_write d hmap (.inl hb), rfl, fun j hj => lenOf_writeLengths_lane s.len d hw hj,
    fun x hx => lenOf_writeLengths_other s.len d hw hx, _, hostAccess_read hmap (.inl hb), fun j hj => ?_⟩
  exact packLanes_lane (fun j => tableAt s.len (lentabSymbol w j)) hj

/-- Settles O20: an absent symbol's canonical code is 0, so its TCODE words are 0 with TVALID = 1 too. -/
theorem tcodeShowsSelectedCode : Obligations.TcodeShowsSelectedCode := by
  intro s k hk hb
  refine ⟨s.tcodeWord k, hostAccess_read (mappedAt_tcode Config.params hk) (.inl hb), tcodeWord_toNat k,
    tcodeWord_of_not_tvalid k, fun htab habsent => ?_⟩
  cases hv : s.tvalid with
  | false => exact tcodeWord_of_not_tvalid k hv
  | true =>
    obtain ⟨-, hcode⟩ := htab hv
    apply BitVec.eq_of_toNat_eq
    rw [tcodeWord_toNat k hv, hcode, codeOf_canonicalCodes_absent habsent, Nat.zero_div]
    rfl

/-- Settles O17: the write is taken whatever BUSY is (R64). -/
theorem statusWriteClearsDone : Obligations.StatusWriteClearsDone := by
  intro s d
  rw [hostAccess_write (tg := .status) d ⟨by decide, rfl, rfl⟩ (.inr rfl), writeTarget]
  cases d.getLsbD 1 <;> simp

/-- Settles O21: CTRL is taken whatever BUSY is, the other registers while BUSY = 0. -/
theorem registerWritesStoreTheirField : Obligations.RegisterWritesStoreTheirField := by
  intro s d
  have hlow (n : Nat) : d.extractLsb' 0 n = BitVec.ofNat n d.toNat := rfl
  refine ⟨hostAccess_write (tg := .ctrl) d ⟨by decide, rfl, rfl⟩ (.inr rfl), fun hb => ?_⟩
  simp only [← hlow]
  exact ⟨hostAccess_write (tg := .iptr) d ⟨by decide, rfl, rfl⟩ (.inl hb),
    hostAccess_write (tg := .icnt) d ⟨by decide, rfl, rfl⟩ (.inl hb),
    hostAccess_write (tg := .brlen) d ⟨by decide, rfl, rfl⟩ (.inl hb),
    hostAccess_write (tg := .brpad) d ⟨by decide, rfl, rfl⟩ (.inl hb),
    hostAccess_write (tg := .dcnt) d ⟨by decide, rfl, rfl⟩ (.inl hb),
    hostAccess_write (tg := .tsel) d ⟨by decide, rfl, rfl⟩ (.inl hb)⟩

/-- Settles O10: DONE falls at the two writes, `irq` with it, and an engine without a command does nothing. -/
theorem interruptFallsAndIdleKeepsState : Obligations.InterruptFallsAndIdleKeepsState := by
  refine ⟨fun s rest w hb hi => ?_, fun s rest w hw hi => ?_, fun s hb hi => ?_⟩
  · obtain ⟨haccess, -⟩ := stepTakesTheFirstScriptEntry s rest
    refine ⟨_, haccess _ hi, ?_⟩
    rw [hostAccess_write (tg := .cmd) w ⟨by decide, rfl, rfl⟩ (.inl hb)]
    simp [writeTarget, State.irq]
  · obtain ⟨haccess, -⟩ := stepTakesTheFirstScriptEntry s rest
    refine ⟨_, haccess _ hi, ?_⟩
    rw [hostAccess_write (tg := .status) w ⟨by decide, rfl, rfl⟩ (.inr rfl)]
    simp [writeTarget, State.irq, hw]
  · rw [step, advance, hi]
    exact if_neg (by simp [hb])

/-- Settles O54: the invariant names no field in which the reset state and the state after a reset differ. -/
theorem resetMeetsInvariant : Obligations.ResetMeetsInvariant := resetFrom_inv Config.params State.reset

/-- Settles O16: STATUS is read whatever BUSY is; each bit and the code stand at their places in the word's number. -/
theorem statusBits : Obligations.StatusBits := by
  intro s
  have hword := statusWord_toNat s
  have hbusy := s.busy.toNat_le
  have hdone := s.done.toNat_le
  have herr := s.err.toNat_le
  have htvalid := s.tvalid.toNat_le
  have hfovf := s.fovf.toNat_le
  have hbreof := s.breof.toNat_le
  have hcode := s.errCode.bits.isLt
  have herr_iff : s.err = true ↔ s.errCode ≠ .noError := decide_eq_true_iff
  refine ⟨s.statusWord, hostAccess_read (tg := .status) ⟨by decide, rfl, rfl⟩ (.inr rfl),
    getLsbD_of_toNat (by omega), getLsbD_of_toNat (by omega), ?_, getLsbD_of_toNat (by omega),
    getLsbD_of_toNat (by omega), ?_, getLsbD_of_toNat ?_, getLsbD_of_toNat ?_, by omega, ?_⟩
  · rw [getLsbD_of_toNat (b := s.err) (by omega)]
    exact herr_iff
  · rw [getLsbD_of_toNat (b := s.breof) (by omega)]
    exact breof_iff s
  · rw [Bool.toNat_false]
    omega
  · rw [Bool.toNat_false]
    omega
  · have hfield : s.statusWord.toNat / 2 ^ 8 % 16 = s.errCode.bits.toNat := by omega
    rw [hfield]
    cases s.errCode <;> rfl

/-- Settles O12: the states after a reset differ only in the model's own fields, which no register, FREQ or LENTAB
shows. -/
theorem resetValues : Obligations.ResetValues := by
  intro t ht
  obtain ⟨inputs, responses, epoch, draws, rfl⟩ := afterReset_eq ht
  refine ⟨rfl, rfl, fun e he => ?_, fun x hx => ?_, fun w hw => ?_⟩
  · refine congrArg Prod.fst (hostAccess_read_registers rfl e ?_)
    simp only [registerFile, List.map, readTarget, ctrlWord_eq_ite, bwstateWord_eq_ofNat]
    rw [fdistWord_of_replicate rfl, afterReset_statusWord]
    exact he
  · rw [hostAccess_read (mappedAt_freq _ hx) (.inl rfl), readTarget]
    exact congrArg _ (tableAt_replicate _ _)
  · rw [hostAccess_read (mappedAt_lentab _ hw) (.inl rfl), readTarget]
    simp only [State.reset, tableAt_replicate]
    rfl

/-- Settles O22: the offsets read are those of the plain registers, and the offsets written are those of the read-only
ones. -/
theorem registersReadAndReadOnlyIgnoresWrites : Obligations.RegistersReadAndReadOnlyIgnoresWrites := by
  intro s d hb
  refine ⟨fun e he => ?_, fun x => ?_, fun o ho => ?_, fun x => ?_⟩
  · refine hostAccess_read_registers hb e ?_
    refine List.map_subset _ (List.filter_sublist (p := fun r => r.2.isPlain) (l := registerFile)).subset ?_
    simp only [registerFile, List.filter, Target.isPlain, List.map, readTarget, ctrlWord_eq_ite, bwstateWord_eq_ofNat,
      fdistWord_eq_card, ← BitVec.ofNat_toNat]
    exact he
  · have hx := hostAccess_read (mappedAt_freq Config.params x.isLt) (.inl hb)
    rwa [readTarget, BitVec.ofNat_toNat, BitVec.setWidth_eq] at hx
  · have hfile : o ∈ (registerFile.filter (·.2.readOnly)).map Prod.fst := ho
    obtain ⟨r, hr, rfl⟩ := List.mem_map.1 hfile
    obtain ⟨hr, hro⟩ := List.mem_filter.1 hr
    rw [hostAccess_write d (mappedAt_registerFile _ r hr) (.inl hb), writeTarget_readOnly d s hro]
  · rw [hostAccess_write d (mappedAt_freq Config.params x.isLt) (.inl hb), writeTarget_readOnly d s rfl]

end Sys2Proof.Machine
end

section
/-! SUPPORT. Which words a format accepts, and the words of GETBITS (spec/30_encoding.md R82-R89). -/

namespace Sys2Proof

/-- A check of a format that passes (R86). -/
theorem reject_eq_ok {c : Prop} [Decidable c] {e : DecodeError} {r : Except DecodeError Instr} {j : Instr} :
    (if c then .error e else r) = .ok j ↔ ¬ c ∧ r = .ok j := by
  split <;> simp [*]

theorem formatN_eq_ok {w : Word} {i j : Instr} : formatN w i = .ok j ↔ w.extractLsb' 0 24 = 0#24 ∧ i = j := by
  rw [formatN, reject_eq_ok, Except.ok.injEq, not_ne_iff]
  exact Iff.rfl

theorem formatS_eq_ok {w : Word} {f : Symbol → Instr} {j : Instr} :
    formatS w f = .ok j ↔ w.extractLsb' 8 16 = 0#16 ∧ f (symField w) = j := by
  rw [formatS, reject_eq_ok, Except.ok.injEq, not_ne_iff]
  exact Iff.rfl

theorem formatB_eq_ok {w : Word} {f : BitVec 5 → BitVec 16 → Instr} {j : Instr} :
    formatB w f = .ok j ↔ w.extractLsb' 21 3 = 0#3 ∧ bitCountOk (nbField w) ∧ f (nbField w) (valField w) = j := by
  rw [formatB, reject_eq_ok, reject_eq_ok, Except.ok.injEq, not_ne_iff, not_not]
  exact Iff.rfl

theorem formatG_eq_ok {w : Word} {f : BitVec 5 → Instr} {j : Instr} :
    formatG w f = .ok j ↔
      w.extractLsb' 21 3 = 0#3 ∧ valField w = 0#16 ∧ bitCountOk (nbField w) ∧ f (nbField w) = j := by
  rw [formatG, reject_eq_ok, reject_eq_ok, Except.ok.injEq, not_or, not_ne_iff, not_ne_iff, not_not, and_assoc]
  exact Iff.rfl

/-- The words of GETBITS: opcode 0x39 in format G (R85, R88). -/
theorem decode_eq_ok_getbits {w : Word} {nb : BitVec 5} :
    decode w = .ok (.getbits nb) ↔ opField w = 0x39#8 ∧ formatG w .getbits = .ok (.getbits nb) := by
  constructor
  · intro h
    unfold decode at h
    split at h
    case h_11 hop => exact ⟨hop, h⟩
    all_goals simp [formatN_eq_ok, formatS_eq_ok, formatB_eq_ok] at h
  · rintro ⟨hop, h⟩
    unfold decode
    rw [hop]
    exact h

/-- The fields of a GETBITS word as a number (R85). -/
theorem decode_eq_ok_getbits_toNat {w : Word} {nb : BitVec 5} (hnb : bitCountOk nb) :
    decode w = .ok (.getbits nb) ↔ w.toNat = 0x39000000 + nb.toNat * 2 ^ 16 := by
  have hw := w.isLt
  have hlt := nb.isLt
  obtain ⟨hlo, hhi⟩ := hnb
  rw [decode_eq_ok_getbits, formatG_eq_ok]
  simp only [Instr.getbits.injEq, ← BitVec.toNat_inj, opField, nbField, valField, BitVec.extractLsb'_toNat,
    Nat.shiftRight_eq_div_pow, BitVec.toNat_ofNat, bitCountOk]
  omega

end Sys2Proof
end

section
/-! SUPPORT. The bits of a string and the value GETBITS makes of them (spec/43_bit_io.md R133, R139). -/

namespace Sys2Proof.Machine

theorem msbBits_succ (n v : Nat) : msbBits (n + 1) v = v.testBit n :: msbBits n v := by
  rw [msbBits, List.range_succ_eq_map, List.map_cons, List.map_map, msbBits]
  refine congrArg _ (List.map_congr_left fun i _ => ?_)
  show v.testBit (n + 1 - 1 - (i + 1)) = v.testBit (n - 1 - i)
  congr 1
  omega

theorem readBits_succ (s : State) (q n : Nat) : readBits s q (n + 1) = s.streamBit q :: readBits s (q + 1) n := by
  rw [readBits, List.range_succ_eq_map, List.map_cons, List.map_map, readBits]
  refine congrArg _ (List.map_congr_left fun i _ => ?_)
  show s.streamBit (q + (i + 1)) = s.streamBit (q + 1 + i)
  congr 1
  omega

/-- BRPOS goes up without wrapping as long as it stays below `2^32`. -/
theorem brpos_add_toNat {b : Word} {n : Nat} (h : b.toNat + n < 2 ^ 32) :
    (b + BitVec.ofNat 32 n).toNat = b.toNat + n := by
  rw [BitVec.toNat_add, BitVec.toNat_ofNat, Nat.add_mod_mod, Nat.mod_eq_of_lt h]

/-- The GETBITS loop appends the bits it reads to the value it began with, the first one highest (R139). -/
theorem getBits_value (n v : Nat) {s : State} (h : s.brpos.toNat + n < 2 ^ 32) :
    (getBits n v s).1 / 2 ^ n = v ∧ msbBits n (getBits n v s).1 = readBits s s.brpos.toNat n := by
  induction n generalizing v s with
  | zero => exact ⟨Nat.div_one v, rfl⟩
  | succ n ih =>
    have hnext : (getBit s).2.brpos.toNat = s.brpos.toNat + 1 := brpos_add_toNat (n := 1) (by omega)
    obtain ⟨hdiv, hbits⟩ := ih (2 * v + (getBit s).1.toNat) (s := (getBit s).2) (by omega)
    have hbit := (getBit s).1.toNat_le
    rw [getBits]
    refine ⟨?_, ?_⟩
    · rw [Nat.pow_succ, ← Nat.div_div_eq_div_mul, hdiv]
      omega
    · rw [msbBits_succ, readBits_succ, hbits, hnext, Nat.testBit_eq_decide_div_mod_eq, hdiv]
      congr 1
      show _ = (getBit s).1
      cases (getBit s).1 <;> simp

/-- GETBITS with enough bits before the limit, as its result: the loop's value in RDATA and BRPOS moved on (R139). -/
theorem getbitsRule_ok {p : Params} {nb : BitVec 5} {s : State} (hr : ReaderOk p s)
    (h : s.brpos.toNat + nb.toNat ≤ s.limit) :
    getbitsRule p nb s = .ok () ((s.setBrpos (s.brpos + BitVec.ofNat 32 nb.toNat)).setRdata
      (BitVec.ofNat 32 (getBits nb.toNat 0 s).1)) := by
  rw [getbitsRule, checkReader, if_neg (Nat.not_lt.2 hr), Result.bind_ok, if_neg (Nat.not_lt.2 h), getBits_state]

/-- An error raised in the start state changes ERRCODE and ERRINFO only, and completes (R180, R181). -/
theorem runCommand_raised_clean {rule : State → Result Unit} {s : State} {e : ErrCode} {info : Word}
    (h : rule s = .raised e info s) : runCommand rule s = FailedClean e info s := by
  rw [runCommand_raised h, takeError_of_optr rfl]
  rfl

/-- The limit of a reader within IBUF is far below `2^32` (R6, R132, R134). -/
theorem limit_le_of_readerOk {p : Params} {s : State} (hr : ReaderOk p s) : s.limit ≤ 8 * 65536 := by
  have := p.ibufBytes_le
  unfold State.limit
  omega

end Sys2Proof.Machine
end

section
/-! PROOFS. GETBITS (spec/43_bit_io.md R139). -/

namespace Sys2Proof.Machine

/-- Settles O34: the loop's value is below `2^NB` and its bits are the stream's; both failures are raised in the start
state. -/
theorem getbitsReadsTheStream : Obligations.GetbitsReadsTheStream := by
  intro nb hlo hhi
  refine ⟨fun w => decode_eq_ok_getbits_toNat ⟨hlo, hhi⟩, fun s => ⟨fun hr hfit => ?_, fun hr => ?_,
    fun hr hfit => ?_⟩⟩
  · have hlimit := limit_le_of_readerOk hr
    obtain ⟨hdiv, hbits⟩ := getBits_value nb.toNat 0 (s := s) (by omega)
    have hlt : (getBits nb.toNat 0 s).1 < 2 ^ nb.toNat := by
      rwa [Nat.div_eq_zero_iff_lt (Nat.two_pow_pos _)] at hdiv
    have hword : (BitVec.ofNat 32 (getBits nb.toNat 0 s).1).toNat = (getBits nb.toNat 0 s).1 := by
      rw [BitVec.toNat_ofNat, Nat.mod_eq_of_lt]
      exact hlt.trans (Nat.pow_lt_pow_right (by decide) (by omega))
    refine ⟨_, (exec_eq _ s).trans (congrArg _ (runCommand_ok (getbitsRule_ok hr hfit))), rfl,
      brpos_add_toNat (by omega), hword.trans_lt hlt, ?_⟩
    exact hword.symm ▸ hbits
  · have hraise : getbitsRule Config.params nb s = .raised .rangeError 1 s := by
      rw [getbitsRule, checkReader, if_pos (Nat.not_le.1 hr), Result.bind_raised]
    rw [exec_eq]
    exact congrArg _ (runCommand_raised_clean hraise)
  · have hraise : getbitsRule Config.params nb s = .raised .truncatedPayload 0 s := by
      rw [getbitsRule, checkReader, if_neg (Nat.not_lt.2 hr), Result.bind_ok, if_pos hfit]
    rw [exec_eq]
    exact congrArg _ (runCommand_raised_clean hraise)

end Sys2Proof.Machine
end

section
/-! SUPPORT. The windows by word: what the address map names in them, which accesses BUSY = 1 leaves open, and the bytes
of a word written (spec/20_memory.md R62, R64, R66). -/

namespace Sys2Proof.Machine

/-! ### The address map -/

theorem mappedAt_ibufWord {p : Params} {w : Nat} (h : 4 * w < p.ibufBytes) :
    MappedAt p (0x10000 + 4 * w) (.ibufWord w) := by
  have hmax := p.ibufBytes_le
  refine ⟨by omega, by omega, ?_⟩
  have hw : (0x10000 + 4 * w - 0x10000) / 4 = w := by omega
  have hin : w < p.ibufBytes / 4 := by
    unfold Params.ibufBytes at h ⊢
    omega
  rw [targetAt, if_neg (by omega), if_neg (by omega), if_neg (by omega), if_neg (by omega), if_neg (by omega),
    if_pos (by omega), hw, if_pos hin]

theorem mappedAt_obufWord {p : Params} {w : Nat} (h : 4 * w < p.obufBytes) :
    MappedAt p (0x20000 + 4 * w) (.obufWord w) := by
  have hmax := p.obufBytes_le
  refine ⟨by omega, by omega, ?_⟩
  have hw : (0x20000 + 4 * w - 0x20000) / 4 = w := by omega
  have hin : w < p.obufBytes / 4 := by
    unfold Params.obufBytes at h ⊢
    omega
  rw [targetAt, if_neg (by omega), if_neg (by omega), if_neg (by omega), if_neg (by omega), if_neg (by omega),
    if_neg (by omega), if_pos (by omega), hw, if_pos hin]

/-- Every aligned offset of the register file names the register listed there (R21). -/
theorem registerAt_mem_registerFile {i : Nat} (h : i < 28) :
    ∃ tg, registerAt i = some tg ∧ (4 * i, tg) ∈ registerFile := by
  interval_cases i <;> exact ⟨_, rfl, by decide⟩

/-- The windows on FREQ, LENTAB, IBUF and OBUF. -/
def Target.isWindow : Target → Bool
  | .freq _ | .lentab _ | .ibufWord _ | .obufWord _ => true
  | _ => false

/-- Below 0x70 the address map is the register file, and beyond it a mapped offset names a window (R21). -/
theorem targetAt_cases {p : Params} {o : Nat} {tg : Target} (h : targetAt p o = some tg) :
    (o < 0x70 ∧ registerAt (o / 4) = some tg) ∨ (0x70 ≤ o ∧ tg.isWindow = true) := by
  unfold targetAt at h
  split_ifs at h
  · exact .inl ⟨‹_›, h⟩
  all_goals
    cases h
    exact .inr ⟨by omega, rfl⟩

/-- The offsets of the window that name nothing are the unmapped ones (R62). -/
theorem targetAt_eq_none_iff {p : Params} {o : Nat} (ho : o < 0x40000) : targetAt p o = none ↔ Unmapped p o := by
  unfold targetAt Unmapped
  split_ifs
  · obtain ⟨tg, htg, -⟩ := registerAt_mem_registerFile (i := o / 4) (by omega)
    simp only [htg, reduceCtorEq, false_iff]
    omega
  all_goals
    simp only [true_iff, false_iff]
    omega

/-! ### Bus errors -/

theorem allowedWhileBusy_of_isWindow {kind : AccessKind} {tg : Target} (h : tg.isWindow = true) :
    allowedWhileBusy kind tg = false := by
  cases tg with
  | freq | lentab | ibufWord | obufWord => cases kind <;> rfl
  | _ => cases h

/-- What BUSY = 1 leaves open, by the registers' offsets (R64). -/
theorem allowedWhileBusy_registerFile (kind : AccessKind) : ∀ r ∈ registerFile,
    allowedWhileBusy kind r.2 = true ↔ (kind = .read ∧ r.1 ∈ [0x000, 0x004, 0x008, 0x00C, 0x010, 0x014])
      ∨ (kind = .write ∧ r.1 ∈ [0x010, 0x014]) := by
  cases kind <;> decide

theorem BusyAccess.offset_lt {a : Access} (h : BusyAccess a) : a.offset.toNat < 0x70 := by
  rcases h with ⟨-, h⟩ | ⟨-, h⟩ <;> simp only [List.mem_cons, List.not_mem_nil, or_false] at h <;> omega

/-- The accesses open while BUSY = 1 are those of rule R64. -/
theorem allowedWhileBusy_iff {p : Params} {a : Access} {tg : Target} (halign : a.offset.toNat % 4 = 0)
    (h : targetAt p a.offset.toNat = some tg) : allowedWhileBusy a.kind tg = true ↔ BusyAccess a := by
  rcases targetAt_cases h with ⟨hlt, hreg⟩ | ⟨hge, hwin⟩
  · obtain ⟨tg', htg', hmem⟩ := registerAt_mem_registerFile (i := a.offset.toNat / 4) (by omega)
    obtain rfl : tg' = tg := Option.some.inj (htg'.symm.trans hreg)
    have ho : 4 * (a.offset.toNat / 4) = a.offset.toNat := by omega
    rw [ho] at hmem
    exact allowedWhileBusy_registerFile a.kind _ hmem
  · rw [allowedWhileBusy_of_isWindow hwin]
    exact iff_of_false Bool.false_ne_true fun hb => absurd hb.offset_lt (Nat.not_lt.2 hge)

/-- An access reaches no target exactly under the conditions of rule R62. -/
theorem acceptedTarget_eq_none_iff {p : Params} {s : State} {a : Access} :
    acceptedTarget p s a = none ↔ BusErrors p s a := by
  unfold acceptedTarget BusErrors
  split_ifs with hsize halign
  · simp [hsize]
  · simp [halign]
  · rw [← targetAt_eq_none_iff a.offset.isLt]
    cases htarget : targetAt p a.offset.toNat with
    | none => simp
    | some tg =>
      have hbusy := allowedWhileBusy_iff (Decidable.not_not.1 halign) htarget
      rw [← hbusy]
      simp [hsize, halign]

/-! ### The bytes of a word -/

theorem Memory.written_write (m : List Host.Cell) (k j : Nat) (b : Byte) :
    Memory.written (Memory.write m k b) j = if j = k then some b else Memory.written m j := by
  split
  · rename_i h
    rw [h, Memory.written_write_same]
  · exact Memory.written_write_ne m b ‹_›

/-- A word written stores its lane `j` in byte `4 * w + j` (R66). -/
theorem written_writeLanes_lane (m : List Host.Cell) (w : Nat) (d : Word) {j : Nat} (hj : j < 4) :
    Memory.written (writeLanes m w d) (4 * w + j) = some (lane d j) := by
  simp only [writeLanes, Memory.written_write]
  interval_cases j <;> simp

theorem written_writeLanes_other (m : List Host.Cell) {w k : Nat} (d : Word) (hk : k / 4 ≠ w) :
    Memory.written (writeLanes m w d) k = Memory.written m k := by
  simp only [writeLanes, Memory.written_write]
  rw [if_neg (by omega), if_neg (by omega), if_neg (by omega), if_neg (by omega)]

end Sys2Proof.Machine
end

section
/-! PROOFS. Host accesses: bus errors, byte lanes, reads and CMD writes (spec/20_memory.md R62-R66), and every step's
answer. -/

namespace Sys2Proof.Machine

/-- Settles O14: an access reaches no target exactly under the listed conditions, and one that reaches a target is
answered. -/
theorem busErrorsExactlyAsListed : Obligations.BusErrorsExactlyAsListed := by
  intro s a
  rw [← acceptedTarget_eq_none_iff]
  rcases hostAccess_cases Config.params a s with ⟨hnone, h⟩ | ⟨tg, hsome, ⟨-, h⟩ | ⟨-, h⟩⟩
  · exact ⟨fun _ => h, fun hn => absurd hnone hn⟩
  all_goals simp [hsome, h]

/-- Settles O19: the three windows' reads pack the bytes of a word, and their writes store its lanes. -/
theorem windowByteLanes : Obligations.WindowByteLanes := by
  intro s w d hb
  refine ⟨fun hw => ?_, fun hw => ?_, fun hw => ?_⟩
  · have hmap := mappedAt_ibufWord hw
    refine ⟨⟨_, hostAccess_write d hmap (.inl hb), rfl, fun j hj => ?_, fun k hk => ?_⟩,
      _, hostAccess_read hmap (.inl hb), fun j hj => packLanes_lane (fun j => s.ibufByte (4 * w + j)) hj⟩
    · simp [writeTarget, State.ibufByte, written_writeLanes_lane _ w d hj, lane_toNat]
    · simp [writeTarget, State.ibufByte, written_writeLanes_other _ d hk]
  · have hmap := mappedAt_obufWord hw
    refine ⟨⟨_, hostAccess_write d hmap (.inl hb), rfl, fun j hj => ?_, fun k hk => ?_⟩,
      _, hostAccess_read hmap (.inl hb), fun j hj => packLanes_lane (fun j => s.obufByte (4 * w + j)) hj⟩
    · simp [writeTarget, State.obufByte, written_writeLanes_lane _ w d hj, lane_toNat]
    · simp [writeTarget, State.obufByte, written_writeLanes_other _ d hk]
  · obtain ⟨t, hwrite, -, hlanes, hother, hread⟩ := lentabWriteReplacesFourEntries s w d hw hb
    exact ⟨⟨t, hwrite, hlanes, hother⟩, hread⟩

/-- Settles O11: the engine's turn completes or is idle, and the host's and the reset input's turns always answer. -/
theorem everyStepAnswersNext : Obligations.EveryStepAnswersNext := by
  intro s
  rcases step_cases s with ⟨rest, -, h⟩ | ⟨a, rest, -, h⟩ | ⟨rest, -, h⟩ <;> rw [h]
  · split
    · obtain ⟨u, hu⟩ := engineStep_completes { s with inputs := rest }
      exact ⟨_, hu⟩
    · exact ⟨_, rfl⟩
  · exact ⟨_, rfl⟩
  · exact ⟨_, rfl⟩

/-- Settles O13: CMD is open while BUSY = 0, and a write to it looks at neither the word nor ERR. -/
theorem cmdWriteIsAccepted : Obligations.CmdWriteIsAccepted :=
  fun _ w hb => hostAccess_write (tg := .cmd) w ⟨by decide, rfl, rfl⟩ (.inl hb)

/-- Settles O15: a read leaves the state as it is, whether it is answered or bus-errors. -/
theorem readsHaveNoSideEffect : Obligations.ReadsHaveNoSideEffect := by
  intro s rest a hkind hi
  obtain ⟨haccess, -⟩ := stepTakesTheFirstScriptEntry s rest
  have hsame : (hostAccess Config.params a s).2 = s := by
    rcases hostAccess_cases Config.params a s with ⟨-, h⟩ | ⟨tg, -, ⟨-, h⟩ | ⟨hwrite, -⟩⟩
    · rw [h]
    · rw [h]
    · rw [hkind] at hwrite
      cases hwrite
  exact ⟨_, by rw [haccess a hi, hsame]⟩

end Sys2Proof.Machine
end

section
/-! SUPPORT. The bit writer as a bit string: what PutBit and PutBits append, and when they overflow
(spec/43_bit_io.md R130, R131). -/

namespace Sys2Proof.Machine

/-! ### Bit strings -/

@[simp] theorem msbBits_length (n v : Nat) : (msbBits n v).length = n := by simp [msbBits]

@[simp] theorem msbBits_zero (v : Nat) : msbBits 0 v = [] := rfl

/-- A bit shifted in at the low end is the last of the bit string (R130). -/
theorem msbBits_append_bit (n v : Nat) (b : Bool) : msbBits (n + 1) (2 * v + b.toNat) = msbBits n v ++ [b] := by
  induction n with
  | zero => cases b <;> simp [msbBits_succ]
  | succ n ih =>
    have hbit : (2 * v + b.toNat).testBit (n + 1) = v.testBit n := by
      have := b.toNat_le
      rw [Nat.testBit_succ]
      congr 1
      omega
    rw [msbBits_succ, ih, hbit, msbBits_succ, List.cons_append]

/-- The bits of a value are those of its low part (R87). -/
theorem msbBits_mod (n v : Nat) : msbBits n (v % 2 ^ n) = msbBits n v := by
  refine List.map_congr_left fun i hi => ?_
  have hi := List.mem_range.1 hi
  rw [Nat.testBit_mod_two_pow, decide_eq_true (by omega), Bool.true_and]

@[simp] theorem pendingBits_length (s : State) : (pendingBits s).length = s.bwcnt.toNat := msbBits_length _ _

/-! ### Appending -/

/-- Appending one string and then another appends both (R131). -/
theorem Appended.trans {s t u : State} {xs ys : List Bool} (h : Appended s t xs) (k : Appended t u ys) :
    Appended s u (xs ++ ys) := by
  obtain ⟨hoptr, hcnt, -, hpending, hbytes, hframe⟩ := h
  obtain ⟨koptr, kcnt, kacc, kpending, kbytes, kframe⟩ := k
  have hlen := List.length_append (as := pendingBits s) (bs := xs)
  rw [pendingBits_length] at hlen
  have hs : bytesCompleted s xs.length = (s.bwcnt.toNat + xs.length) / 8 := rfl
  have hsum : bytesCompleted s (xs ++ ys).length = bytesCompleted s xs.length + bytesCompleted t ys.length := by
    rw [List.length_append, bytesCompleted, bytesCompleted, bytesCompleted]
    omega
  have hdrop (n : Nat) : (pendingBits t ++ ys).drop (8 * n)
      = (pendingBits s ++ (xs ++ ys)).drop (8 * (bytesCompleted s xs.length + n)) := by
    rw [hpending, ← List.drop_append_of_le_length (by omega), List.drop_drop, ← Nat.mul_add, List.append_assoc]
  refine ⟨by omega, by rw [List.length_append]; omega, kacc, by rw [kpending, hdrop, hsum], fun j hj => ?_,
    fun i hi => ?_⟩
  · by_cases hjs : j < bytesCompleted s xs.length
    · rw [kframe _ (.inl (by omega)), hbytes j hjs, ← List.append_assoc,
        List.drop_append_of_le_length (l₁ := pendingBits s ++ xs) (by omega),
        List.take_append_of_le_length (by rw [List.length_drop]; omega)]
    · have hsplit : j = bytesCompleted s xs.length + (j - bytesCompleted s xs.length) := by omega
      have hk := kbytes (j - bytesCompleted s xs.length) (by omega)
      rw [hdrop, ← hsplit] at hk
      rw [← hk, hoptr, Nat.add_assoc, ← hsplit]
  · rw [kframe i (by omega), hframe i (by omega)]

theorem appended_nil {p : Params} {s : State} (hw : WriterInv p s) : Appended s s [] := by
  obtain ⟨-, hcnt, hacc⟩ := hw
  have hnone : bytesCompleted s 0 = 0 := Nat.div_eq_of_lt (by omega)
  have hmod : s.bwcnt.toNat = (s.bwcnt.toNat + 0) % 8 := (Nat.mod_eq_of_lt (by omega)).symm
  exact ⟨by simp [hnone], hmod, hacc, by simp [hnone], fun j hj => by simp [hnone] at hj, fun _ _ => rfl⟩

theorem RoomFor.mono {p : Params} {s : State} {m n : Nat} (h : RoomFor p s n) (hmn : m ≤ n) : RoomFor p s m := by
  unfold RoomFor at *
  omega

/-- Bits appended with room leave the writer in its range (R36, R37). -/
theorem Appended.writerInv {p : Params} {s t : State} {bits : List Bool} (h : Appended s t bits)
    (hroom : RoomFor p s bits.length) : WriterInv p t := by
  obtain ⟨hoptr, hcnt, hacc, -⟩ := h
  exact ⟨hoptr.trans_le hroom, by omega, hacc⟩

/-- Bits appended use up their part of the room (R130). -/
theorem Appended.roomFor_iff {p : Params} {s t : State} {bits : List Bool} (h : Appended s t bits) (n : Nat) :
    RoomFor p t n ↔ RoomFor p s (bits.length + n) := by
  obtain ⟨hoptr, hcnt, -⟩ := h
  rw [bytesCompleted] at hoptr
  unfold RoomFor
  omega

/-! ### PutBit -/

/-- The shift of `PutBit` loses no bit of a pending part below a byte (R37, R130). -/
theorem shiftIn_toNat_of_pending {p : Params} {s : State} (b : Bool) (hw : WriterInv p s) :
    (shiftIn s.bwacc b).toNat = 2 * s.bwacc.toNat + b.toNat := by
  obtain ⟨-, hcnt, hacc⟩ := hw
  have hpow := Nat.pow_le_pow_right Nat.two_pos hcnt
  have hb := b.toNat_le
  rw [shiftIn_toNat]
  omega

/-- The accumulator after a shift holds the pending bits and then the new one (R130). -/
theorem msbBits_shiftIn {p : Params} {s : State} (b : Bool) (hw : WriterInv p s) :
    msbBits (s.bwcnt.toNat + 1) (shiftIn s.bwacc b).toNat = pendingBits s ++ [b] := by
  rw [shiftIn_toNat_of_pending b hw, msbBits_append_bit, pendingBits]

theorem bwcnt_succ {c : BitVec 4} (h : c.toNat < 7) : (c + 1).toNat = c.toNat + 1 := by
  have e : (1 : BitVec 4).toNat = 1 := rfl
  rw [BitVec.toNat_add, e]
  omega

/-- A bit taken as pending is appended (R130). -/
theorem appended_pendingBit {p : Params} {s : State} (b : Bool) (hw : WriterInv p s) (hc : s.bwcnt.toNat < 7) :
    Appended s (s.setWriter s.optr (shiftIn s.bwacc b) (s.bwcnt + 1)) [b] := by
  have hshift := msbBits_shiftIn b hw
  have hacc := shiftIn_toNat_of_pending b hw
  have hnext := bwcnt_succ hc
  have hnone : bytesCompleted s 1 = 0 := Nat.div_eq_of_lt (by omega)
  have hb := b.toNat_le
  obtain ⟨-, -, hlt⟩ := hw
  refine ⟨by simp [hnone], ?_, ?_, ?_, fun j hj => by simp [hnone] at hj, fun _ _ => rfl⟩
  · simp only [State.setWriter_bwcnt, hnext, List.length_singleton]
    omega
  · simp only [State.setWriter_bwcnt, State.setWriter_bwacc, hnext, hacc, Nat.pow_succ]
    omega
  · rw [List.length_singleton, hnone, Nat.mul_zero, List.drop_zero, ← hshift, ← hnext]
    rfl

/-- The eighth bit is appended by storing the byte it completes at OPTR (R130). -/
theorem appended_completedByte {p : Params} {s : State} (b : Bool) (hw : WriterInv p s) (hc : s.bwcnt.toNat = 7)
    (hin : s.optr.toNat < p.obufBytes) :
    Appended s ((s.putObuf s.optr.toNat (shiftIn s.bwacc b)).setWriter (s.optr + 1) 0 0) [b] := by
  have hshift := msbBits_shiftIn b hw
  rw [hc] at hshift
  have hone : bytesCompleted s [b].length = 1 := by rw [List.length_singleton, bytesCompleted, hc]
  have hlen : (pendingBits s ++ [b]).length = 8 := by simp [hc]
  refine ⟨?_, ?_, Nat.one_pos, ?_, fun j hj => ?_, fun k hk => ?_⟩
  · rw [hone]
    exact optr_succ hin
  · simp [hc]
  · rw [hone, List.drop_of_length_le hlen.le]
    rfl
  · rw [hone] at hj
    obtain rfl : j = 0 := by omega
    rw [Nat.mul_zero, List.drop_zero, List.take_of_length_le hlen.le, ← hshift]
    congr 2
    exact State.obufByte_putObuf_same _ _ _
  · rw [hone] at hk
    exact State.obufByte_putObuf_ne _ _ (by omega)

/-- `PutBit` with room appends its bit (R130): as pending, or completing a byte at OPTR. -/
theorem putBit_appends {p : Params} {s : State} (b : Bool) (hw : WriterInv p s) (hroom : RoomFor p s 1) :
    ∃ t, putBit p b s = .ok () t ∧ Appended s t [b] := by
  rcases putBit_cases p b s with ⟨hc, h⟩ | ⟨hc, hin, h⟩ | ⟨hc, hfull, -⟩
  · have hne : s.bwcnt.toNat ≠ 7 := fun e => hc (BitVec.eq_of_toNat_eq e)
    exact ⟨_, h, appended_pendingBit b hw (by omega)⟩
  · exact ⟨_, h, appended_completedByte b hw (congrArg BitVec.toNat hc) hin⟩
  · have hseven : s.bwcnt.toNat = 7 := congrArg BitVec.toNat hc
    omega

/-- `PutBit` without room overflows, and OPTR stands at the end of OBUF (R130). -/
theorem putBit_overflows {p : Params} {s : State} (b : Bool) (hw : WriterInv p s) (hroom : ¬ RoomFor p s 1) :
    putBit p b s = .raised .outputOverflow 0 s ∧ s.optr.toNat = p.obufBytes := by
  obtain ⟨hoptr, hcnt, -⟩ := hw
  have hc : s.bwcnt.toNat = 7 := by omega
  have hend : s.optr.toNat = p.obufBytes := by omega
  refine ⟨?_, hend⟩
  rw [putBit, if_pos (BitVec.eq_of_toNat_eq hc), if_pos hend.ge]

/-! ### PutBits -/

/-- `PutBits` with room appends the low bits of its value, MSB first (R131). -/
theorem putBits_appends {p : Params} {s : State} (n v : Nat) (hw : WriterInv p s) (hroom : RoomFor p s n) :
    ∃ t, putBits p n v s = .ok () t ∧ Appended s t (msbBits n v) := by
  induction n generalizing s with
  | zero => exact ⟨s, rfl, appended_nil hw⟩
  | succ n ih =>
    have hone : RoomFor p s 1 := hroom.mono (by omega)
    obtain ⟨t, ht, hat⟩ := putBit_appends (v.testBit n) hw hone
    obtain ⟨u, hu, hau⟩ := ih (hat.writerInv hone) ((hat.roomFor_iff n).2 (hroom.mono (Nat.add_comm 1 n).le))
    refine ⟨u, ?_, ?_⟩
    · rw [putBits, ht, Result.bind_ok, hu]
    · rw [msbBits_succ]
      exact hat.trans hau

/-- `PutBits` without room overflows once OPTR has reached the end of OBUF (R130, R131). -/
theorem putBits_overflows {p : Params} {s : State} (n v : Nat) (hw : WriterInv p s) (hroom : ¬ RoomFor p s n) :
    ∃ u, putBits p n v s = .raised .outputOverflow 0 u ∧ u.optr.toNat = p.obufBytes := by
  induction n generalizing s with
  | zero =>
    obtain ⟨hoptr, hcnt, -⟩ := hw
    exact absurd (by unfold RoomFor; omega) hroom
  | succ n ih =>
    by_cases hone : RoomFor p s 1
    · obtain ⟨t, ht, hat⟩ := putBit_appends (v.testBit n) hw hone
      have hnot : ¬ RoomFor p t n := fun h => hroom (((hat.roomFor_iff n).1 h).mono (Nat.add_comm n 1).le)
      obtain ⟨u, hu, hend⟩ := ih (hat.writerInv hone) hnot
      exact ⟨u, by rw [putBits, ht, Result.bind_ok, hu], hend⟩
    · obtain ⟨hraise, hend⟩ := putBit_overflows (v.testBit n) hw hone
      exact ⟨s, by rw [putBits, hraise, Result.bind_raised], hend⟩

/-! ### Commands that append -/

theorem Appended.complete {s t : State} {bits : List Bool} (h : Appended s t bits) : Appended s t.complete bits := h

/-- A rule within the writer's frame that leaves BRPOS changes only the writer, once it completes. -/
theorem StreamFrame.onlyWriterChanged {p : Params} {s t : State} (h : StreamFrame p s t) (hb : t.brpos = s.brpos) :
    OnlyWriterChanged s t.complete := by
  have ht := State.eq_of_streamless h.same
  rw [hb] at ht
  exact congrArg State.complete ht

/-- An error taken differs from the start state by the error and the bytes written (R180, R181). -/
theorem takeError_failed (e : ErrCode) (info : Word) (s u : State) :
    Failed e info (bytesWritten s u) s (takeError e info s u).complete :=
  ⟨rfl, fun _ => takeError_obufByte (e := e) (i := info)⟩

end Sys2Proof.Machine
end

section
/-! SUPPORT. The words of PUTBITS (spec/30_encoding.md R84, R88). -/

namespace Sys2Proof

/-- The words of PUTBITS: opcode 0x31 in format B (R84, R88). -/
theorem decode_eq_ok_putbits {w : Word} {nb : BitVec 5} {val : BitVec 16} :
    decode w = .ok (.putbits nb val) ↔ opField w = 0x31#8 ∧ formatB w .putbits = .ok (.putbits nb val) := by
  constructor
  · intro h
    unfold decode at h
    split at h
    case h_8 hop => exact ⟨hop, h⟩
    all_goals simp [formatN_eq_ok, formatS_eq_ok, formatG_eq_ok] at h
  · rintro ⟨hop, h⟩
    unfold decode
    rw [hop]
    exact h

/-- The fields of a PUTBITS word as a number (R84). -/
theorem decode_eq_ok_putbits_toNat {w : Word} {nb : BitVec 5} {val : BitVec 16} (hnb : bitCountOk nb) :
    decode w = .ok (.putbits nb val) ↔ w.toNat = 0x31000000 + nb.toNat * 2 ^ 16 + val.toNat := by
  have hw := w.isLt
  have hlt := nb.isLt
  have hval := val.isLt
  obtain ⟨hlo, hhi⟩ := hnb
  rw [decode_eq_ok_putbits, formatB_eq_ok]
  simp only [Instr.putbits.injEq, ← BitVec.toNat_inj, opField, nbField, valField, BitVec.extractLsb'_toNat,
    Nat.shiftRight_eq_div_pow, BitVec.toNat_ofNat, bitCountOk]
  omega

end Sys2Proof
end

section
/-! PROOFS. PUTBITS (spec/43_bit_io.md R136). -/

namespace Sys2Proof.Machine

/-- Settles O32: PUTBITS is `PutBits` of the literal, which appends its bits or overflows with OPTR at the end of
OBUF. -/
theorem putbitsAppendsLiteral : Obligations.PutbitsAppendsLiteral := by
  intro nb val hlo hhi
  refine ⟨fun w => decode_eq_ok_putbits_toNat ⟨hlo, hhi⟩, fun s hw => ⟨fun hroom => ?_, fun hroom => ?_⟩⟩
  · obtain ⟨t, ht, ha⟩ := putBits_appends nb.toNat (literalBits nb val) hw hroom
    rw [literalBits, msbBits_mod] at ha
    have hframe := putBits_frame Config.params nb.toNat (literalBits nb val) s
    have hbrpos := putBits_brpos Config.params nb.toNat (literalBits nb val) s
    rw [ht] at hframe hbrpos
    exact ⟨_, (exec_eq _ s).trans (congrArg _ (runCommand_ok ht)), hframe.onlyWriterChanged hbrpos, ha.complete⟩
  · obtain ⟨u, hu, hend⟩ := putBits_overflows nb.toNat (literalBits nb val) hw hroom
    refine ⟨_, (exec_eq _ s).trans (congrArg _ (runCommand_raised hu)), ?_⟩
    rw [← hend]
    exact takeError_failed .outputOverflow 0 s u

end Sys2Proof.Machine
end

section
/-! SUPPORT. The words of each format, and the words of every command: what decodes, and to what (spec/30_encoding.md
R80-R89). -/

namespace Sys2Proof

/-! ### The words of a format (R82-R85) -/

/-- A field is `x` above `y` exactly if its high part is `x` and its low part is `y`. -/
theorem extractLsb'_eq_append_iff {k m n : Nat} {w : BitVec k} {x : BitVec m} {y : BitVec n} (start : Nat) :
    w.extractLsb' start (m + n) = x ++ y ↔ w.extractLsb' (start + n) m = x ∧ w.extractLsb' start n = y := by
  rw [← BitVec.extractLsb'_append_extractLsb'_eq_extractLsb' rfl]
  constructor
  · intro h
    have hx := congrArg (BitVec.extractLsb' n m) h
    have hy := congrArg (BitVec.extractLsb' 0 n) h
    rw [BitVec.extractLsb'_append_eq_left, BitVec.extractLsb'_append_eq_left] at hx
    rw [BitVec.extractLsb'_append_eq_right, BitVec.extractLsb'_append_eq_right] at hy
    exact ⟨hx, hy⟩
  · rintro ⟨rfl, rfl⟩
    rfl

/-- The words of format N (R82). -/
theorem eq_wordN_iff {w : Word} {op : BitVec 8} : w = op ++ 0#24 ↔ opField w = op ∧ w.extractLsb' 0 24 = 0#24 := by
  rw [opField, ← extractLsb'_eq_append_iff (m := 8) (n := 24) 0, BitVec.extractLsb'_eq_self (x := w)]

/-- The words of format S (R83). -/
theorem eq_wordS_iff {w : Word} {op : BitVec 8} {sym : Symbol} :
    w = op ++ 0#16 ++ sym ↔ opField w = op ∧ w.extractLsb' 8 16 = 0#16 ∧ symField w = sym := by
  rw [← and_assoc, opField, symField, ← extractLsb'_eq_append_iff (m := 8) (n := 16) 8,
    ← extractLsb'_eq_append_iff (m := 24) (n := 8) 0, BitVec.extractLsb'_eq_self (x := w)]

/-- The words of format B, and with VAL = 0 those of format G (R84, R85). -/
theorem eq_wordB_iff {w : Word} {op : BitVec 8} {nb : BitVec 5} {val : BitVec 16} :
    w = op ++ 0#3 ++ nb ++ val ↔
      opField w = op ∧ w.extractLsb' 21 3 = 0#3 ∧ nbField w = nb ∧ valField w = val := by
  rw [← and_assoc, ← and_assoc, opField, nbField, valField, ← extractLsb'_eq_append_iff (m := 8) (n := 3) 21,
    ← extractLsb'_eq_append_iff (m := 11) (n := 5) 16, ← extractLsb'_eq_append_iff (m := 16) (n := 16) 0,
    BitVec.extractLsb'_eq_self (x := w)]

theorem nbField_wordB (op : BitVec 8) (nb : BitVec 5) (val : BitVec 16) :
    nbField (op ++ 0#3 ++ nb ++ val) = nb := by
  obtain ⟨-, -, h, -⟩ := eq_wordB_iff.1 (rfl : op ++ 0#3 ++ nb ++ val = op ++ 0#3 ++ nb ++ val)
  exact h

/-! ### What a format decodes under an opcode (R82-R86) -/

theorem opField_formatN_iff {w : Word} {op : BitVec 8} {i j : Instr} :
    opField w = op ∧ formatN w i = .ok j ↔ w = op ++ 0#24 ∧ i = j := by
  rw [formatN_eq_ok, eq_wordN_iff, and_assoc]

theorem opField_formatS_iff {w : Word} {op : BitVec 8} {f : Symbol → Instr} {j : Instr} :
    opField w = op ∧ formatS w f = .ok j ↔ ∃ sym, w = op ++ 0#16 ++ sym ∧ f sym = j := by
  simp only [formatS_eq_ok, eq_wordS_iff, and_assoc, exists_and_left, exists_eq_left']

theorem opField_formatB_iff {w : Word} {op : BitVec 8} {f : BitVec 5 → BitVec 16 → Instr} {j : Instr} :
    opField w = op ∧ formatB w f = .ok j ↔
      ∃ nb val, bitCountOk nb ∧ w = op ++ 0#3 ++ nb ++ val ∧ f nb val = j := by
  rw [formatB_eq_ok]
  constructor
  · rintro ⟨hop, hres, hnb, hj⟩
    exact ⟨_, _, hnb, eq_wordB_iff.2 ⟨hop, hres, rfl, rfl⟩, hj⟩
  · rintro ⟨nb, val, hnb, hw, hj⟩
    obtain ⟨hop, hres, rfl, rfl⟩ := eq_wordB_iff.1 hw
    exact ⟨hop, hres, hnb, hj⟩

theorem opField_formatG_iff {w : Word} {op : BitVec 8} {f : BitVec 5 → Instr} {j : Instr} :
    opField w = op ∧ formatG w f = .ok j ↔ ∃ nb, bitCountOk nb ∧ w = op ++ 0#3 ++ nb ++ 0#16 ∧ f nb = j := by
  rw [formatG_eq_ok]
  constructor
  · rintro ⟨hop, hres, hval, hnb, hj⟩
    exact ⟨_, hnb, eq_wordB_iff.2 ⟨hop, hres, rfl, hval⟩, hj⟩
  · rintro ⟨nb, hnb, hw, hj⟩
    obtain ⟨hop, hres, rfl, hval⟩ := eq_wordB_iff.1 hw
    exact ⟨hop, hres, hval, hnb, hj⟩

/-! ### What decodes -/

/-- A word decodes to a command exactly if that command has an encoding and the word is it (R80-R89). -/
theorem decode_eq_ok_iff {w : Word} {i : Instr} : decode w = .ok i ↔ i.WellFormed ∧ w = encode i := by
  constructor
  · intro h
    unfold decode at h
    split at h
    case h_1 hop | h_2 hop | h_3 hop | h_5 hop | h_6 hop | h_7 hop | h_9 hop | h_10 hop | h_13 hop | h_14 hop
      | h_15 hop | h_16 hop =>
      obtain ⟨hw, rfl⟩ := opField_formatN_iff.1 ⟨hop, h⟩
      exact ⟨trivial, hw⟩
    case h_4 hop | h_12 hop =>
      obtain ⟨sym, hw, rfl⟩ := opField_formatS_iff.1 ⟨hop, h⟩
      exact ⟨trivial, hw⟩
    case h_8 hop =>
      obtain ⟨nb, val, hnb, hw, rfl⟩ := opField_formatB_iff.1 ⟨hop, h⟩
      exact ⟨hnb, hw⟩
    case h_11 hop =>
      obtain ⟨nb, hnb, hw, rfl⟩ := opField_formatG_iff.1 ⟨hop, h⟩
      exact ⟨hnb, hw⟩
    case h_17 => cases h
  · rintro ⟨hi, rfl⟩
    cases i with
    | facc sym | encsym sym =>
      obtain ⟨hop, h⟩ := opField_formatS_iff.2 ⟨sym, rfl, rfl⟩
      unfold decode
      rw [encode, hop]
      exact h
    | putbits nb val => exact decode_eq_ok_putbits.2 (opField_formatB_iff.2 ⟨nb, val, hi, rfl, rfl⟩)
    | getbits nb => exact decode_eq_ok_getbits.2 (opField_formatG_iff.2 ⟨nb, hi, rfl, rfl⟩)
    | nop | clrerr | fclr | fscan | tbuild | bwreset | flush | brreset | encode | decsym | decode | decall => rfl

end Sys2Proof
end

section
/-! SUPPORT. The rows of the opcode map (spec/30_encoding.md R88) and the words of commands. -/

namespace Sys2Proof.Machine

/-! ### The masks of the formats -/

/-- A field all of whose bits are in the mask. -/
theorem extractLsb'_and_of_allOnes {w m : Word} {start len : Nat}
    (h : m.extractLsb' start len = BitVec.allOnes len) :
    (w &&& m).extractLsb' start len = w.extractLsb' start len := by
  rw [BitVec.extractLsb'_and, h, BitVec.and_allOnes]

/-- The mask of format S leaves SYM out (R83). -/
theorem eq_wordS_of_mask {w : Word} {op : BitVec 8} (h : w &&& 0xFFFFFF00#32 = op ++ 0#16 ++ 0#8) :
    w = op ++ 0#16 ++ symField w := by
  obtain ⟨hop, hres, -⟩ := eq_wordS_iff.1 h
  rw [opField, extractLsb'_and_of_allOnes (by decide)] at hop
  rw [extractLsb'_and_of_allOnes (by decide)] at hres
  exact eq_wordS_iff.2 ⟨hop, hres, rfl⟩

/-- The mask of format B leaves NB and VAL out (R84). -/
theorem eq_wordB_of_mask {w : Word} {op : BitVec 8} (h : w &&& 0xFFE00000#32 = op ++ 0#3 ++ 0#5 ++ 0#16) :
    w = op ++ 0#3 ++ nbField w ++ valField w := by
  obtain ⟨hop, hres, -, -⟩ := eq_wordB_iff.1 h
  rw [opField, extractLsb'_and_of_allOnes (by decide)] at hop
  rw [extractLsb'_and_of_allOnes (by decide)] at hres
  exact eq_wordB_iff.2 ⟨hop, hres, rfl, rfl⟩

/-- The mask of format G leaves NB out (R85). -/
theorem eq_wordG_of_mask {w : Word} {op : BitVec 8} (h : w &&& 0xFFE0FFFF#32 = op ++ 0#3 ++ 0#5 ++ 0#16) :
    w = op ++ 0#3 ++ nbField w ++ 0#16 := by
  obtain ⟨hop, hres, -, hval⟩ := eq_wordB_iff.1 h
  rw [opField, extractLsb'_and_of_allOnes (by decide)] at hop
  rw [extractLsb'_and_of_allOnes (by decide)] at hres
  rw [valField, extractLsb'_and_of_allOnes (by decide)] at hval
  exact eq_wordB_iff.2 ⟨hop, hres, rfl, hval⟩

/-- NB as the opcode map reads it off the word (R84, R85, R88). -/
theorem nbField_toNat (w : Word) : (nbField w).toNat = w.toNat / 2 ^ 16 % 32 := by
  rw [nbField, BitVec.extractLsb'_toNat, Nat.shiftRight_eq_div_pow]

/-! ### From a row to a command -/

/-- Every word that selects a row is the word of a command with an encoding (R88). -/
theorem exists_encode_of_selects {w : Word} {r : OpcodeRow} (hr : r ∈ opcodeMap) (h : r.selects w) :
    ∃ i : Instr, i.WellFormed ∧ w = encode i := by
  obtain ⟨hm, hnb⟩ := h
  rw [← nbField_toNat] at hnb
  have hall : w &&& 0xFFFFFFFF#32 = w := BitVec.and_allOnes
  simp only [opcodeMap, List.mem_cons, List.not_mem_nil, or_false] at hr
  rcases hr with rfl | rfl | rfl | rfl | rfl | rfl | rfl | rfl | rfl | rfl | rfl | rfl | rfl | rfl | rfl | rfl
  · exact ⟨.nop, trivial, hall.symm.trans hm⟩
  · exact ⟨.clrerr, trivial, hall.symm.trans hm⟩
  · exact ⟨.fclr, trivial, hall.symm.trans hm⟩
  · exact ⟨.facc _, trivial, eq_wordS_of_mask hm⟩
  · exact ⟨.fscan, trivial, hall.symm.trans hm⟩
  · exact ⟨.tbuild, trivial, hall.symm.trans hm⟩
  · exact ⟨.bwreset, trivial, hall.symm.trans hm⟩
  · exact ⟨.putbits _ _, hnb rfl, eq_wordB_of_mask hm⟩
  · exact ⟨.flush, trivial, hall.symm.trans hm⟩
  · exact ⟨.brreset, trivial, hall.symm.trans hm⟩
  · exact ⟨.getbits _, hnb rfl, eq_wordG_of_mask hm⟩
  · exact ⟨.encsym _, trivial, eq_wordS_of_mask hm⟩
  · exact ⟨.encode, trivial, hall.symm.trans hm⟩
  · exact ⟨.decsym, trivial, hall.symm.trans hm⟩
  · exact ⟨.decode, trivial, hall.symm.trans hm⟩
  · exact ⟨.decall, trivial, hall.symm.trans hm⟩

/-! ### From a command to its row -/

theorem tableRow (i : Instr) : Laws.TableRow.Statement i := by
  cases i with
  | nop => exact Laws.TableRow.nop
  | clrerr => exact Laws.TableRow.clrerr
  | fclr => exact Laws.TableRow.fclr
  | facc sym => exact Laws.TableRow.facc sym
  | fscan => exact Laws.TableRow.fscan
  | tbuild => exact Laws.TableRow.tbuild
  | bwreset => exact Laws.TableRow.bwreset
  | putbits nb val => exact Laws.TableRow.putbits nb val
  | flush => exact Laws.TableRow.flush
  | brreset => exact Laws.TableRow.brreset
  | getbits nb => exact Laws.TableRow.getbits nb
  | encsym sym => exact Laws.TableRow.encsym sym
  | encode => exact Laws.TableRow.encode
  | decsym => exact Laws.TableRow.decsym
  | decode => exact Laws.TableRow.decode
  | decall => exact Laws.TableRow.decall

/-- Only PUTBITS and GETBITS have a counted row (R84, R85, R88). -/
theorem counted_mnemonic : ∀ r ∈ opcodeMap, r.counted = true → r.mnemonic = "PUTBITS" ∨ r.mnemonic = "GETBITS" := by
  decide

/-- The NB field of a well-formed command listed under a counted row is in 1..16 (R84, R85). -/
theorem bitCountOk_encode {i : Instr} (hi : i.WellFormed) (h : mnemonicOf i = "PUTBITS" ∨ mnemonicOf i = "GETBITS") :
    bitCountOk (nbField (encode i)) := by
  cases i with
  | putbits nb val => rwa [encode, nbField_wordB]
  | getbits nb => rwa [encode, nbField_wordB]
  | _ => simp [mnemonicOf] at h

/-- The word of a command selects the row of its mnemonic and no other (R88). -/
theorem selects_encode_iff {i : Instr} (hi : i.WellFormed) {r : OpcodeRow} (hr : r ∈ opcodeMap) :
    r.selects (encode i) ↔ r.mnemonic = mnemonicOf i := by
  refine ⟨fun h => (tableRow i hi r hr).1 h.1, fun h => ⟨(tableRow i hi r hr).2 h, fun hc => ?_⟩⟩
  rw [← nbField_toNat]
  exact bitCountOk_encode hi (h ▸ counted_mnemonic r hr hc)

/-- Every command is listed in the opcode map (R88). -/
theorem exists_row (i : Instr) : ∃ r ∈ opcodeMap, r.mnemonic = mnemonicOf i := by
  cases i <;> simp [opcodeMap, mnemonicOf]

/-- A word that selects no row does not decode (R89). -/
theorem decode_ne_ok_of_no_row {w : Word} (h : ∀ r ∈ opcodeMap, ¬ r.selects w) (i : Instr) : decode w ≠ .ok i := by
  intro hd
  obtain ⟨hi, rfl⟩ := decode_eq_ok_iff.1 hd
  obtain ⟨r, hr, hm⟩ := exists_row i
  exact h r hr ((selects_encode_iff hi hr).2 hm)

/-- The CLRERR word selects a row, so a word that selects none is another one (R88, R101). -/
theorem ne_clrerrWord_of_no_row {w : Word} (h : ∀ r ∈ opcodeMap, ¬ r.selects w) : w ≠ clrerrWord := by
  rintro rfl
  exact decode_ne_ok_of_no_row h .clrerr rfl

end Sys2Proof.Machine
end

section
/-! PROOFS. Decoding and encoding (spec/30_encoding.md R80-R91). -/

namespace Sys2Proof.Machine

/-- Settles O1: the words that decode are the words of well-formed commands. -/
theorem decodeOfEncode : Obligations.DecodeOfEncode := fun _ hi => decode_eq_ok_iff.2 ⟨hi, rfl⟩

/-- Settles O2: the words that decode are the words of well-formed commands. -/
theorem encodeOfDecode : Obligations.EncodeOfDecode := by
  intro w i h
  obtain ⟨hi, hw⟩ := decode_eq_ok_iff.1 h
  exact ⟨hi, hw.symm⟩

/-- Settles O3: a word that selects a row and a word that decodes are both the word of a well-formed command, and that
word selects the row of the command's mnemonic only. -/
theorem decodingFollowsOpcodeMap : Obligations.DecodingFollowsOpcodeMap := by
  intro w r hr
  constructor
  · intro h
    obtain ⟨i, hi, rfl⟩ := exists_encode_of_selects hr h
    exact ⟨i, decode_eq_ok_iff.2 ⟨hi, rfl⟩, ((selects_encode_iff hi hr).1 h).symm⟩
  · rintro ⟨i, h, hm⟩
    obtain ⟨hi, rfl⟩ := decode_eq_ok_iff.1 h
    exact (selects_encode_iff hi hr).2 hm.symm

/-- Settles O7: a word that selects no row neither decodes nor is the CLRERR word. -/
theorem illegalWordFailsWithBadCommand : Obligations.IllegalWordFailsWithBadCommand := by
  intro s _ hrow
  rcases engineStep_cases s with ⟨herr, -, hstep⟩ | ⟨herr, ⟨i, hd, -⟩ | ⟨e, -, hstep⟩⟩
  · exact ⟨fun h => absurd h herr, fun _ => hstep⟩
  · exact absurd hd (decode_ne_ok_of_no_row hrow i)
  · exact ⟨fun _ => hstep, fun h => absurd (herr.resolve_left h) (ne_clrerrWord_of_no_row hrow)⟩

/-- Settles O4, by running the decoder on each word. -/
theorem sampleWordsDecode : Obligations.SampleWordsDecode :=
  ⟨rfl, rfl, rfl, rfl, rfl, rfl, rfl, ⟨_, rfl⟩, ⟨_, rfl⟩⟩

end Sys2Proof.Machine
end

section
/-! SUPPORT. The CLRERR word, and the branches of the engine's step (spec/40_control.md R101, spec/60_exceptions.md
R180). -/

namespace Sys2Proof.Machine

/-- OP as the opcode byte of the word's number (R81). -/
theorem opField_eq_ofNat (w : Word) : opField w = BitVec.ofNat 8 (w.toNat / 2 ^ 24) := by
  rw [opField, BitVec.extractLsb', Nat.shiftRight_eq_div_pow]

/-- The CLRERR word and no other is CLRERR (R101). -/
theorem decode_eq_ok_clrerr {w : Word} : decode w = .ok .clrerr ↔ w = clrerrWord :=
  decode_eq_ok_iff.trans (and_iff_right trivial)

/-- Under CLRERR's opcode nothing but the CLRERR word decodes (R82, R88). -/
theorem eq_clrerrWord_of_opField {w : Word} {i : Instr} (hop : opField w = 0x01#8) (h : decode w = .ok i) :
    w = clrerrWord := by
  unfold decode at h
  rw [hop] at h
  obtain ⟨hw, -⟩ := opField_formatN_iff.1 ⟨hop, h⟩
  exact hw

/-- A command whose rule runs to its end completes in the rule's state (R180). -/
theorem exec_of_ruleOf_ok {i : Instr} {s t : State} (h : ruleOf i s = .ok () t) : exec i s = .next t.complete :=
  (exec_eq i s).trans (congrArg _ (runCommand_ok h))

/-- With an error recorded, every word but CLRERR is refused (R180). -/
theorem engineStep_refused {s : State} (herr : s.errCode ≠ .noError) (hw : s.pending ≠ clrerrWord) :
    engineStep s = .next s.complete := if_pos ⟨herr, hw⟩

/-- The CLRERR word runs whether or not an error is recorded (R101, R180). -/
theorem engineStep_clrerr {s : State} (hw : s.pending = clrerrWord) : engineStep s = exec .clrerr s := by
  rw [engineStep, if_neg fun h => h.2 hw, decode_eq_ok_clrerr.2 hw]

/-- With no error recorded, a word that does not decode is BadCommand (R89, R180). -/
theorem engineStep_badCommand {s : State} (herr : s.errCode = .noError) (hd : ∀ i, decode s.pending ≠ .ok i) :
    engineStep s = .next (FailedClean .badCommand s.pending s) := by
  rcases engineStep_cases s with ⟨hne, -⟩ | ⟨-, ⟨i, hok, -⟩ | ⟨-, -, hstep⟩⟩
  · exact absurd herr hne
  · exact absurd hok (hd i)
  · exact hstep

end Sys2Proof.Machine
end

section
/-! PROOFS. CLRERR and the commands that cannot fail (spec/40_control.md R100, R101; R111, R135, R138). -/

namespace Sys2Proof.Machine

/-- Settles O23: each of the five rules runs to its end in every state. -/
theorem commandsThatCannotFailComplete : Obligations.CommandsThatCannotFailComplete := fun s =>
  ⟨exec_of_ruleOf_ok (i := .nop) (t := s) rfl,
    exec_of_ruleOf_ok (i := .clrerr) (t := returnFromError s) rfl,
    exec_of_ruleOf_ok (i := .fclr) (t := s.setCounts (Vector.replicate 256 0) 0 false) rfl,
    exec_of_ruleOf_ok (i := .bwreset) (t := (s.setWriter 0 0 0).setPad 0) rfl,
    exec_of_ruleOf_ok (i := .brreset) (t := s.setBrpos 0) rfl⟩

/-- Settles O24: the CLRERR word runs CLRERR; any other is refused with an error recorded, and under CLRERR's opcode
does not decode. -/
theorem clrerrLeavesTheErrorState : Obligations.ClrerrLeavesTheErrorState := by
  refine ⟨fun _ => decode_eq_ok_clrerr, fun s _ => ?_⟩
  have hclear (hw : s.pending = clrerrWord) :
      engineStep s = .next { s with errCode := .noError, errInfo := 0, busy := false, done := true } := by
    obtain ⟨-, hexec, -⟩ := commandsThatCannotFailComplete s
    rw [engineStep_clrerr hw, hexec]
  refine ⟨hclear, fun hw ⟨_, _, hinfo, _⟩ herr => ?_, fun hw herr => engineStep_refused herr hw,
    fun hop hw herr => engineStep_badCommand herr fun i hd => hw (eq_clrerrWord_of_opField ?_ hd)⟩
  · rw [hclear hw, ← herr, ← hinfo herr]
  · rw [opField_eq_ofNat, hop]

end Sys2Proof.Machine
end

section
/-! SUPPORT. FACC's word, counting a list of symbols, and FSCAN's range check and result (spec/30_encoding.md R83,
spec/41_frequency.md R110, R113). -/

namespace Sys2Proof.Machine

/-! ### The word of FACC -/

/-- The word of a format S command as a number (R83). -/
theorem eq_wordS_iff_toNat {w : Word} {op : BitVec 8} {sym : Symbol} :
    w = op ++ 0#16 ++ sym ↔ w.toNat = op.toNat * 2 ^ 24 + sym.toNat := by
  rw [← BitVec.toNat_inj, toNat_append_eq_add, toNat_append_eq_add, BitVec.toNat_ofNat]
  omega

/-! ### One counter -/

/-- A counter is at most the value it saturates at (R45). -/
theorem counter_le_max (c : Word) : c.toNat ≤ 0xFFFFFFFF := Nat.le_of_lt_succ c.isLt

/-- Of `n + 1` further counts some are lost exactly if the first is or, after it, some of the other `n` are (R110). -/
theorem counts_lost_succ_iff (c : Word) (n : Nat) :
    0xFFFFFFFF < c.toNat + (n + 1) ↔ saturated c = true ∨ 0xFFFFFFFF < (countUp c).toNat + n := by
  have := counter_le_max c
  rw [saturated_iff, countUp_toNat]
  omega

/-! ### Counting a list of symbols -/

/-- `Inc` of each symbol of a list, in its order. -/
def incAll (xs : List Symbol) (s : State) : State := xs.foldl (fun t x => inc x t) s

@[simp] theorem incAll_nil (s : State) : incAll [] s = s := rfl

@[simp] theorem incAll_cons (y : Symbol) (ys : List Symbol) (s : State) :
    incAll (y :: ys) s = incAll ys (inc y s) := rfl

/-- Counting a range of IBUF is counting its bytes, which no count changes (R113). -/
theorem incRange_eq_incAll (n k : Nat) (s : State) :
    incRange n k s = incAll ((List.range n).map fun i => s.ibufByte (k + i)) s := by
  induction n generalizing k s with
  | zero => rfl
  | succ n ih =>
    have hbyte (i : Nat) : (inc (s.ibufByte k) s).ibufByte (k + 1 + i) = s.ibufByte (k + (i + 1)) := by
      rw [Nat.add_assoc, Nat.add_comm 1]
      rfl
    simp only [incRange, ih, hbyte, List.range_succ_eq_map, List.map_cons, List.map_map, incAll_cons]
    rfl

/-- Counting a list changes FREQ, FTOTAL and FOVF only (R110). -/
theorem incAll_frame (xs : List Symbol) (s : State) :
    incAll xs s = s.setCounts (incAll xs s).freq (incAll xs s).ftotal (incAll xs s).fovf := by
  induction xs generalizing s with
  | nil => rfl
  | cons y ys ih => exact ih (inc y s)

theorem incAll_freq_toNat (xs : List Symbol) (x : Symbol) (s : State) :
    (tableAt (incAll xs s).freq x).toNat = min ((tableAt s.freq x).toNat + xs.count x) 0xFFFFFFFF := by
  induction xs generalizing s with
  | nil => exact (Nat.min_eq_left (counter_le_max _)).symm
  | cons y ys ih =>
    rw [incAll_cons, ih]
    by_cases h : x = y
    · subst h
      rw [inc_freq_same, countUp_toNat, List.count_cons_self]
      omega
    · rw [inc_freq_ne _ h, List.count_cons_of_ne (Ne.symm h)]

theorem incAll_ftotal_toNat (xs : List Symbol) (s : State) :
    (incAll xs s).ftotal.toNat = min (s.ftotal.toNat + xs.length) 0xFFFFFFFF := by
  induction xs generalizing s with
  | nil => exact (Nat.min_eq_left (counter_le_max _)).symm
  | cons y ys ih =>
    rw [incAll_cons, ih, inc_ftotal, countUp_toNat, List.length_cons]
    omega

/-- A counter loses a count of a list exactly if it is the first symbol's and full, or loses one of the rest (R110). -/
theorem freq_lost_cons_iff (x y : Symbol) (ys : List Symbol) (s : State) :
    0xFFFFFFFF < (tableAt s.freq x).toNat + (y :: ys).count x ↔
      (x = y ∧ saturated (tableAt s.freq y) = true)
        ∨ 0xFFFFFFFF < (tableAt (inc y s).freq x).toNat + ys.count x := by
  by_cases h : x = y
  · subst h
    rw [List.count_cons_self, counts_lost_succ_iff, inc_freq_same, and_iff_right rfl]
  · rw [List.count_cons_of_ne (Ne.symm h), inc_freq_ne _ h, or_iff_right fun ⟨hx, _⟩ => h hx]

/-- Counting a list sets FOVF exactly if FREQ or FTOTAL loses a count (R30, R110). -/
theorem incAll_fovf_iff (xs : List Symbol) (s : State) :
    (incAll xs s).fovf = true ↔ s.fovf = true
      ∨ (∃ x : Symbol, 0xFFFFFFFF < (tableAt s.freq x).toNat + xs.count x)
      ∨ 0xFFFFFFFF < s.ftotal.toNat + xs.length := by
  induction xs generalizing s with
  | nil =>
    have hkept (c : Word) : ¬ 0xFFFFFFFF < c.toNat + 0 := Nat.not_lt.2 (counter_le_max c)
    simp only [incAll_nil, List.count_nil, List.length_nil, hkept, exists_false, or_false]
  | cons y ys ih =>
    simp only [incAll_cons, ih, inc_fovf, inc_ftotal, Bool.or_eq_true, freq_lost_cons_iff, List.length_cons,
      counts_lost_succ_iff, exists_or, exists_eq_left]
    -- The same five ways to set FOVF stand on both sides, in another order.
    tauto

/-! ### The check and the result of FSCAN -/

/-- A range that fits passes the check (R113, R151). -/
theorem checkInputRange_of_fits {p : Params} {s : State} (h : s.iptr.toNat + s.icnt.toNat ≤ p.ibufBytes) :
    checkInputRange p s = .ok () s := if_pos (decide_eq_true h)

/-- A range that does not fit is RangeError(0), raised in the start state (R113, R151). -/
theorem checkInputRange_of_not_fits {p : Params} {s : State} (h : p.ibufBytes < s.iptr.toNat + s.icnt.toNat) :
    checkInputRange p s = .raised .rangeError 0 s :=
  if_neg fun hfits => Nat.not_le.2 h (of_decide_eq_true hfits)

theorem inputBytes_length (s : State) : (inputBytes s).length = s.icnt.toNat := by simp [inputBytes]

/-- FSCAN of a range that fits counts the bytes of the range (R113). -/
theorem fscanRule_ok {p : Params} {s : State} (h : s.iptr.toNat + s.icnt.toNat ≤ p.ibufBytes) :
    fscanRule p s = .ok () (incAll (inputBytes s) s) := by
  rw [fscanRule, checkInputRange_of_fits h, Result.bind_ok, incRange_eq_incAll]
  rfl

theorem fscanRule_raised {p : Params} {s : State} (h : p.ibufBytes < s.iptr.toNat + s.icnt.toNat) :
    fscanRule p s = .raised .rangeError 0 s := by
  rw [fscanRule, checkInputRange_of_not_fits h, Result.bind_raised]

end Sys2Proof.Machine
end

section
/-! PROOFS. FACC and FSCAN (spec/41_frequency.md R110, R112, R113). -/

namespace Sys2Proof.Machine

/-- Settles O25: FACC is one `Inc`, which counts its symbol and no other. -/
theorem faccCountsOneSymbol : Obligations.FaccCountsOneSymbol := by
  intro sym s
  refine ⟨fun w => ?_, (inc sym s).complete, exec_of_ruleOf_ok (i := .facc sym) rfl, rfl, ?_,
    fun x hx => inc_freq_ne s hx, countUp_toNat _, ?_⟩
  · rw [decode_eq_ok_iff, and_iff_right trivial]
    exact eq_wordS_iff_toNat
  · rw [State.complete_freq, inc_freq_same, countUp_toNat]
  · simp only [State.complete_fovf, inc_fovf, saturated, Bool.or_eq_true, decide_eq_true_iff, or_assoc]

/-- Settles O26: FSCAN counts the list of the range's bytes; the check of the range raises in the start state. -/
theorem fscanCountsTheInputRange : Obligations.FscanCountsTheInputRange := by
  refine ⟨fun w => decode_eq_ok_iff.trans (and_iff_right trivial), fun s => ⟨fun hfits => ?_, fun hover => ?_⟩⟩
  · have htotal := incAll_ftotal_toNat (inputBytes s) s
    have hfovf := incAll_fovf_iff (inputBytes s) s
    rw [inputBytes_length] at htotal hfovf
    exact ⟨(incAll (inputBytes s) s).complete, exec_of_ruleOf_ok (i := .fscan) (fscanRule_ok hfits),
      congrArg State.complete (incAll_frame _ s), fun x => incAll_freq_toNat _ x s, htotal, hfovf⟩
  · rw [exec_eq]
    exact congrArg _ (runCommand_raised_clean (fscanRule_raised hover))

end Sys2Proof.Machine
end

section
/-! SUPPORT. The codes along the canonical order, and the three results of TBUILD's checks (spec/42_code_table.md R121,
R122). -/

namespace Sys2Proof.Machine

/-! ### One canonical order -/

theorem keyBefore_irrefl (t : Vector Byte 256) (x : Symbol) : ¬ keyBefore t x x := fun h => keyBefore_asymm h h

/-- A LENTAB has one canonical order, the model's sorted list (R121). -/
theorem IsCanonicalOrder.eq_canonicalOrder {t : Vector Byte 256} {order : List Symbol} (h : IsCanonicalOrder t order) :
    order = canonicalOrder t := by
  obtain ⟨hsorted, hmem⟩ := h
  obtain ⟨hsorted', hmem'⟩ := canonicalOrder_isCanonicalOrder t
  have : Std.Irrefl (keyBefore t) := ⟨keyBefore_irrefl t⟩
  have : Std.Antisymm (keyBefore t) := ⟨fun _ _ hxy hyx => absurd hyx (keyBefore_asymm hxy)⟩
  exact hsorted.eq_of_mem_iff hsorted' fun x => (hmem x).trans (hmem' x).symm

/-- Two neighbours of a list cut it in two. -/
theorem eq_append_of_getElem?_succ {α : Type} {l : List α} {j : Nat} {x y : α} (hx : l[j]? = some x)
    (hy : l[j + 1]? = some y) : ∃ pre post, l = pre ++ x :: y :: post := by
  obtain ⟨hj, rfl⟩ := List.getElem?_eq_some_iff.1 hx
  obtain ⟨hj', rfl⟩ := List.getElem?_eq_some_iff.1 hy
  refine ⟨l.take j, l.drop (j + 2), ?_⟩
  rw [← List.drop_eq_getElem_cons hj', ← List.drop_eq_getElem_cons hj, List.take_append_drop]

/-! ### The codes along the order -/

section
variable {p : Params} {t : Vector Byte 256}

/-- The code after a symbol's, shifted up to MAX_LEN bits, is the Kraft sum of the symbols up to it (R121). -/
theorem canonicalCodes_succ_scaled {pre post : List Symbol} {x : Symbol} (hv : ValidTable p t)
    (h : canonicalOrder t = pre ++ x :: post) :
    (codeOf (canonicalCodes t) x + 1) * 2 ^ (p.maxLen - lenOf t x) = kraftOf p t (pre ++ [x]) := by
  rw [Nat.succ_mul, canonicalCodes_scaled hv h]
  simp

/-- The first code of the order is 0 (R121). -/
theorem canonicalCodes_first {post : List Symbol} {x : Symbol} (hv : ValidTable p t)
    (h : canonicalOrder t = x :: post) : codeOf (canonicalCodes t) x = 0 := by
  have hscaled := canonicalCodes_scaled (pre := []) hv h
  exact (Nat.mul_eq_zero.1 hscaled).resolve_right (Nat.two_pow_pos _).ne'

/-- Each next code of the order is the code before it plus one, shifted left by the growth in length (R121). -/
theorem canonicalCodes_next {pre post : List Symbol} {x y : Symbol} (hv : ValidTable p t)
    (h : canonicalOrder t = pre ++ x :: y :: post) :
    codeOf (canonicalCodes t) y = (codeOf (canonicalCodes t) x + 1) * 2 ^ (lenOf t y - lenOf t x) := by
  obtain ⟨hsorted, -⟩ := canonicalOrder_isCanonicalOrder t
  rw [h] at hsorted
  obtain ⟨-, hsorted, -⟩ := List.pairwise_append.1 hsorted
  have hle := keyBefore_len_le (List.rel_of_pairwise_cons hsorted List.mem_cons_self)
  have hmax := hv.1 y
  have hsplit : p.maxLen - lenOf t x = (lenOf t y - lenOf t x) + (p.maxLen - lenOf t y) := by omega
  have hy : canonicalOrder t = (pre ++ [x]) ++ y :: post := by simp [h]
  refine Nat.eq_of_mul_eq_mul_right (Nat.two_pow_pos (p.maxLen - lenOf t y)) ?_
  rw [canonicalCodes_scaled hv hy, ← canonicalCodes_succ_scaled hv h, hsplit, Nat.pow_add, Nat.mul_assoc]

/-- The table is complete exactly if the order's last code is all ones (R123, property 5). -/
theorem kraftUnits_complete_iff {pre : List Symbol} {x : Symbol} (hv : ValidTable p t)
    (h : canonicalOrder t = pre ++ [x]) :
    kraftUnits p t = 2 ^ p.maxLen ↔ codeOf (canonicalCodes t) x + 1 = 2 ^ lenOf t x := by
  have hfull : 2 ^ p.maxLen = 2 ^ lenOf t x * 2 ^ (p.maxLen - lenOf t x) := by
    rw [← Nat.pow_add, Nat.add_sub_cancel' (hv.1 x)]
  rw [← kraftOf_canonicalOrder, h, ← canonicalCodes_succ_scaled hv h, hfull,
    Nat.mul_left_inj (Nat.two_pow_pos _).ne']

/-- Present symbols of one length with none of that length between them are neighbours in the order (R121). -/
theorem canonicalOrder_neighbours {x y : Symbol} (hx : 0 < lenOf t x) (hlen : lenOf t y = lenOf t x)
    (hxy : x.toNat < y.toNat)
    (hbetween : ∀ z : Symbol, x.toNat < z.toNat → z.toNat < y.toNat → lenOf t z ≠ lenOf t x) :
    ∃ pre post, canonicalOrder t = pre ++ x :: y :: post := by
  obtain ⟨pre, mid, post, h⟩ := canonicalOrder_split hx (hlen ▸ hx) (.inr ⟨hlen.symm, hxy⟩)
  obtain ⟨hsorted, -⟩ := canonicalOrder_isCanonicalOrder t
  rw [h] at hsorted
  obtain ⟨-, hsorted, -⟩ := List.pairwise_append.1 hsorted
  obtain ⟨hafter_x, hsorted⟩ := List.pairwise_cons.1 hsorted
  obtain ⟨-, -, hbefore_y⟩ := List.pairwise_append.1 hsorted
  have hmid : mid = [] := by
    refine List.eq_nil_iff_forall_not_mem.2 fun z hz => ?_
    have hxz := hafter_x z (by simp [hz])
    have hzy := hbefore_y z hz y (by simp)
    have := hbetween z
    unfold keyBefore at hxz hzy
    omega
  exact ⟨pre, post, by simp [h, hmid]⟩

end

/-! ### The checks of TBUILD (R122) -/

theorem symbols_increasing : symbols.Pairwise fun x y => x.toNat < y.toNat := by
  refine List.pairwise_map.2 (List.pairwise_lt_range.imp_of_mem fun ha hb hlt => ?_)
  rw [List.mem_range] at ha hb
  rwa [BitVec.toNat_ofNat, BitVec.toNat_ofNat, Nat.mod_eq_of_lt ha, Nat.mod_eq_of_lt hb]

/-- The search names the lowest symbol whose length exceeds MAX_LEN. -/
theorem firstTooLong_eq_some {p : Params} {t : Vector Byte 256} {x : Symbol} (hx : p.maxLen < lenOf t x)
    (hlow : ∀ y : Symbol, y.toNat < x.toNat → lenOf t y ≤ p.maxLen) : firstTooLong p t = some x := by
  obtain ⟨pre, post, h⟩ := List.append_of_mem (mem_symbols x)
  have hsorted := symbols_increasing
  rw [h] at hsorted
  obtain ⟨-, -, hpre⟩ := List.pairwise_append.1 hsorted
  refine List.find?_eq_some_iff_append.2 ⟨decide_eq_true hx, pre, post, h, fun y hy => ?_⟩
  simpa using hlow y (hpre y hy x List.mem_cons_self)

/-- A symbol under a number of whole bytes adds to it (R122, R151). -/
theorem ofNat_or_symbol (k : Nat) (x : Symbol) :
    BitVec.ofNat 32 (2 ^ 8 * k) ||| x.setWidth 32 = BitVec.ofNat 32 (2 ^ 8 * k + x.toNat) := by
  rw [Nat.two_pow_add_eq_or_of_lt x.isLt, BitVec.ofNat_or, BitVec.ofNat_toNat]

/-- A length above MAX_LEN is raised first, with its lowest symbol (R122). -/
theorem tbuildRule_of_tooLong {p : Params} {s : State} {x : Symbol} (hx : p.maxLen < lenOf s.len x)
    (hlow : ∀ y : Symbol, y.toNat < x.toNat → lenOf s.len y ≤ p.maxLen) :
    tbuildRule p s = .raised .invalidHeader (BitVec.ofNat 32 (0x00020000 + x.toNat)) s := by
  rw [tbuildRule, firstTooLong_eq_some hx hlow]
  exact congrArg (Result.raised .invalidHeader · s) (ofNat_or_symbol 0x200 x)

/-- With every length in range, TBUILD compares the Kraft sum (R122). -/
theorem tbuildRule_of_lengths {p : Params} {s : State} (hlen : ∀ x : Symbol, lenOf s.len x ≤ p.maxLen) :
    tbuildRule p s = if 2 ^ p.maxLen < kraftUnits p s.len then .raised .invalidHeader 0x00010000#32 s
      else .ok () (s.setTable (canonicalCodes s.len)) := by
  rw [tbuildRule, firstTooLong_eq_none.2 hlen, kraftSum_eq_kraftUnits]

/-- On a valid LENTAB TBUILD writes the canonical codes (R122). -/
theorem exec_tbuild_of_validTable {s : State} (hv : ValidTable Config.params s.len) :
    exec .tbuild s = .next (s.setTable (canonicalCodes s.len)).complete := by
  obtain ⟨hlen, hkraft⟩ := hv
  exact exec_of_ruleOf_ok (i := .tbuild) ((tbuildRule_of_lengths hlen).trans (if_neg (Nat.not_lt.2 hkraft)))

end Sys2Proof.Machine
end

section
/-! PROOFS. TBUILD and the code table it builds (spec/42_code_table.md R120-R123). -/

namespace Sys2Proof.Machine

/-- Settles O27: a list sorted by the key is the model's own order, along which the codes follow the recurrence. -/
theorem tbuildAssignsCanonicalCodes : Obligations.TbuildAssignsCanonicalCodes := by
  refine ⟨fun w => decode_eq_ok_iff.trans (and_iff_right trivial), fun s hv =>
    ⟨_, exec_tbuild_of_validTable hv, rfl, fun x hx => codeOf_canonicalCodes_absent hx, fun order horder => ?_⟩⟩
  obtain rfl := horder.eq_canonicalOrder
  refine ⟨fun x hx => ?_, fun j x y hx hy => ?_⟩
  · obtain ⟨post, h⟩ := List.head?_eq_some_iff.1 hx
    exact canonicalCodes_first hv h
  · obtain ⟨pre, post, h⟩ := eq_append_of_getElem?_succ hx hy
    exact canonicalCodes_next hv h

/-- Settles O28: both checks raise in the start state, the length check first. -/
theorem tbuildRejectsInvalidTables : Obligations.TbuildRejectsInvalidTables :=
  ⟨fun _ _ => ⟨fun _ hx hlow => runCommand_raised_clean (tbuildRule_of_tooLong hx hlow),
    fun hlen hkraft => runCommand_raised_clean ((tbuildRule_of_lengths hlen).trans (if_pos hkraft))⟩,
    exec_eq .tbuild⟩

/-- Settles O30: symbols of one length with none between them are neighbours in the order, and the last symbol's code
plus one is the whole Kraft sum. -/
theorem builtCodesAreOrderedAndDetermined : Obligations.BuiltCodesAreOrderedAndDetermined := by
  intro s htab hs
  obtain ⟨hv, hcode⟩ := htab hs
  rw [hcode]
  refine ⟨fun x y hx hlen hxy hbetween => ?_, fun order horder => ?_, fun s' htab' hs' hsame => ?_⟩
  · obtain ⟨pre, post, h⟩ := canonicalOrder_neighbours hx hlen hxy hbetween
    rw [canonicalCodes_next hv h, hlen, Nat.sub_self, Nat.pow_zero, Nat.mul_one]
  · obtain rfl := horder.eq_canonicalOrder
    refine ⟨fun x hx => ?_, fun x hx => ?_⟩
    · obtain ⟨post, h⟩ := List.head?_eq_some_iff.1 hx
      exact canonicalCodes_first hv h
    · obtain ⟨pre, h⟩ := List.getLast?_eq_some_iff.1 hx
      exact kraftUnits_complete_iff hv h
  · obtain ⟨-, hcode'⟩ := htab' hs'
    rw [hcode', hsame]

/-- Settles O31: the table that TVALID = 1 stands for is the one TBUILD writes. -/
theorem rebuildingChangesNothing : Obligations.RebuildingChangesNothing := by
  intro s htab hs
  obtain ⟨hv, hcode⟩ := htab hs
  have hsame : s.setTable (canonicalCodes s.len) = s := by
    rw [State.setTable, ← hcode, ← hs]
  rw [exec_tbuild_of_validTable hv, hsame]
  rfl

end Sys2Proof.Machine
end

section
/-! SUPPORT. The byte FLUSH writes, and its three results (spec/43_bit_io.md R137). -/

namespace Sys2Proof.Machine

/-- Shifting left by `m` puts `m` zero bits after the bits of a value. -/
theorem msbBits_mul_two_pow (n m v : Nat) :
    msbBits (n + m) (v * 2 ^ m) = msbBits n v ++ List.replicate m false := by
  induction m with
  | zero => simp
  | succ m ih =>
    have hdouble : v * 2 ^ (m + 1) = 2 * (v * 2 ^ m) + false.toNat := by
      rw [Nat.pow_succ, ← Nat.mul_assoc, Nat.mul_comm]
      rfl
    rw [hdouble, ← Nat.add_assoc, msbBits_append_bit, ih, List.replicate_succ', List.append_assoc]

/-- The byte FLUSH writes holds the pending bits and then zero bits (R137). -/
theorem msbBits_flushedByte {s : State} (hc : s.bwcnt.toNat ≤ 8) :
    msbBits 8 (s.bwacc <<< (8 - s.bwcnt.toNat)).toNat
      = pendingBits s ++ List.replicate (8 - s.bwcnt.toNat) false := by
  have hbits := msbBits_mul_two_pow s.bwcnt.toNat (8 - s.bwcnt.toNat) s.bwacc.toNat
  rw [Nat.add_sub_cancel' hc] at hbits
  rw [BitVec.toNat_shiftLeft, Nat.shiftLeft_eq, msbBits_mod, hbits, pendingBits]

section
variable {p : Params} {s : State}

theorem flushRule_aligned (hc : s.bwcnt = 0) : flushRule p s = .ok () (s.setPad 0) := by
  rw [flushRule, if_neg (by simp [hc])]

theorem flushRule_pending (hc : 0 < s.bwcnt.toNat) (hin : s.optr.toNat < p.obufBytes) :
    flushRule p s = .ok () (((s.putObuf s.optr.toNat (s.bwacc <<< (8 - s.bwcnt.toNat))).setWriter (s.optr + 1) 0 0
      ).setPad (BitVec.ofNat 3 (8 - s.bwcnt.toNat))) := by
  rw [flushRule, if_pos hc, if_neg (Nat.not_le.2 hin)]

theorem flushRule_full (hc : 0 < s.bwcnt.toNat) (hfull : p.obufBytes ≤ s.optr.toNat) :
    flushRule p s = .raised .outputOverflow 0 s := by
  rw [flushRule, if_pos hc, if_pos hfull]

end

end Sys2Proof.Machine
end

section
/-! PROOFS. FLUSH (spec/43_bit_io.md R137). -/

namespace Sys2Proof.Machine

/-- Settles O33: the byte written at OPTR is the accumulator shifted up to eight bits; the overflow is raised in the
start state. -/
theorem flushPadsTheFinalByte : Obligations.FlushPadsTheFinalByte := by
  refine ⟨fun w => decode_eq_ok_iff.trans (and_iff_right trivial), fun s hw => ⟨fun hc => ?_, fun hc hin => ?_,
    fun hc hfull => ?_⟩⟩
  · exact exec_of_ruleOf_ok (i := .flush) (flushRule_aligned hc)
  · obtain ⟨-, hseven, -⟩ := hw
    refine ⟨_, exec_of_ruleOf_ok (i := .flush) (flushRule_pending hc hin), rfl, ?_, ?_, fun k hk => ?_⟩
    · exact Nat.mod_eq_of_lt (show 8 - s.bwcnt.toNat < 8 by omega)
    · refine Eq.trans ?_ (msbBits_flushedByte (by omega))
      congr 2
      exact State.obufByte_putObuf_same _ _ _
    · exact State.obufByte_putObuf_ne _ _ hk
  · exact (exec_eq .flush s).trans (congrArg _ (runCommand_raised_clean (flushRule_full hc hfull.ge)))

end Sys2Proof.Machine
end

section
/-! SUPPORT. The encoder over a list of symbols: what one code and a list of codes append (spec/44_encoder.md R150,
R151). -/

namespace Sys2Proof.Machine

/-! ### What appending leaves alone -/

theorem codesOf_of_streamless {s t : State} (h : t.streamless = s.streamless) : codesOf t = codesOf s := by
  show codesOf t.streamless = codesOf s.streamless
  rw [h]

theorem present_of_streamless {s t : State} (h : t.streamless = s.streamless) : present t = present s := by
  show present t.streamless = present s.streamless
  rw [h]

theorem inputByte_of_streamless {s t : State} (h : t.streamless = s.streamless) (k : Nat) :
    t.ibufByte (t.iptr.toNat + k) = s.ibufByte (s.iptr.toNat + k) := by
  show t.streamless.ibufByte (t.streamless.iptr.toNat + k) = s.streamless.ibufByte (s.streamless.iptr.toNat + k)
  rw [h]

theorem encodeSym_ok_streamless {p : Params} {k : Nat} {x : Symbol} {s t : State} {a : Unit}
    (h : encodeSym p k x s = .ok a t) : t.streamless = s.streamless := by
  have hframe := encodeSym_frame p k x s
  rw [h] at hframe
  exact hframe.same

@[simp] theorem codeBits_length (s : State) (x : Symbol) : (codeBits s x).length = lenOf s.len x := msbBits_length _ _

@[simp] theorem codesOf_nil (s : State) : codesOf s [] = [] := rfl

@[simp] theorem codesOf_cons (s : State) (x : Symbol) (xs : List Symbol) :
    codesOf s (x :: xs) = codeBits s x ++ codesOf s xs := rfl

/-! ### Encoding a list -/

/-- The codes of a list of symbols, the first one the `k`-th of its command. -/
def encodeAll (p : Params) : (k : Nat) → List Symbol → State → Result Unit
  | _, [], s => .ok () s
  | k, x :: xs, s => (encodeSym p k x s).bind fun _ s => encodeAll p (k + 1) xs s

/-- Encoding a range of IBUF is encoding its bytes, which no code changes (R151). -/
theorem encodeFrom_eq_encodeAll (p : Params) (n k : Nat) (s : State) :
    encodeFrom p n k s = encodeAll p k ((List.range n).map fun i => s.ibufByte (s.iptr.toNat + (k + i))) s := by
  induction n generalizing k s with
  | zero => rfl
  | succ n ih =>
    rw [encodeFrom, List.range_succ_eq_map, List.map_cons, List.map_map, encodeAll, Nat.add_zero]
    cases h : encodeSym p k (s.ibufByte (s.iptr.toNat + k)) s with
    | raised e info u => rfl
    | ok a t =>
      rw [Result.bind_ok, Result.bind_ok, ih]
      congr 1
      refine List.map_congr_left fun i _ => ?_
      rw [inputByte_of_streamless (encodeSym_ok_streamless h), Nat.add_assoc, Nat.add_comm 1]
      rfl

section
variable {p : Params} {s : State}

/-- The code of a present symbol, with room, is appended (R150). -/
theorem encodeSym_appends (k : Nat) {x : Symbol} (hw : WriterInv p s) (hx : present s x)
    (hroom : RoomFor p s (lenOf s.len x)) : ∃ t, encodeSym p k x s = .ok () t ∧ Appended s t (codeBits s x) := by
  rw [encodeSym, if_neg hx.ne']
  exact putBits_appends _ _ hw hroom

/-- The codes of present symbols, with room for all, are appended in order (R151). -/
theorem encodeAll_appends (k : Nat) {xs : List Symbol} (hw : WriterInv p s) (hxs : ∀ x ∈ xs, present s x)
    (hroom : RoomFor p s (codesOf s xs).length) :
    ∃ t, encodeAll p k xs s = .ok () t ∧ Appended s t (codesOf s xs) := by
  induction xs generalizing k s with
  | nil => exact ⟨s, rfl, appended_nil hw⟩
  | cons x xs ih =>
    obtain ⟨hx, hxs⟩ := List.forall_mem_cons.1 hxs
    rw [codesOf_cons, List.length_append] at hroom
    have hfirst := hroom.mono (Nat.le_add_right _ _)
    obtain ⟨t, ht, hat⟩ := encodeSym_appends k hw hx (codeBits_length s x ▸ hfirst)
    have hkept := encodeSym_ok_streamless ht
    have hcodes := codesOf_of_streamless hkept
    have hpresent := present_of_streamless hkept
    obtain ⟨u, hu, hau⟩ := ih (k + 1) (hat.writerInv hfirst) (hpresent ▸ hxs)
      (hcodes ▸ (hat.roomFor_iff _).2 hroom)
    rw [hcodes] at hau
    exact ⟨u, by rw [encodeAll, ht, Result.bind_ok, hu], hat.trans hau⟩

/-! ### ENCODE -/

theorem checkTable_of_tvalid (h : s.tvalid = true) : checkTable s = .ok () s := by simp [checkTable, h]

/-- ENCODE with a table and a range that fits encodes the bytes of the range (R151). -/
theorem encodeRule_eq_encodeAll (ht : s.tvalid = true) (hfits : s.iptr.toNat + s.icnt.toNat ≤ p.ibufBytes) :
    encodeRule p s = encodeAll p 0 (inputBytes s) s := by
  rw [encodeRule, checkTable_of_tvalid ht, Result.bind_ok, checkInputRange_of_fits hfits, Result.bind_ok,
    encodeFrom_eq_encodeAll]
  simp only [Nat.zero_add]
  rfl

end

end Sys2Proof.Machine
end

section
/-! PROOFS. ENCODE (spec/44_encoder.md R151). -/

namespace Sys2Proof.Machine

/-- Settles O36: ENCODE encodes the list of the range's bytes, and the writer's frame holds for its rule. -/
theorem encodeAppendsCodesInOrder : Obligations.EncodeAppendsCodesInOrder := by
  refine ⟨fun w => decode_eq_ok_iff.trans (and_iff_right trivial), fun s hw htable hfits hpresent hroom => ?_⟩
  obtain ⟨t, ht, ha⟩ := encodeAll_appends 0 hw hpresent hroom
  have hrule : ruleOf .encode s = .ok () t := (encodeRule_eq_encodeAll htable hfits).trans ht
  obtain ⟨hframe, hbrpos⟩ := ruleOf_footprint .encode s
  rw [hrule] at hframe hbrpos
  exact ⟨_, exec_of_ruleOf_ok hrule, hframe.onlyWriterChanged hbrpos, ha.complete⟩

end Sys2Proof.Machine
end

section
/-! SUPPORT. How the encoder fails over a list of symbols, and what a successful ENCODE tells of its start state
(spec/44_encoder.md R150, R151). -/

namespace Sys2Proof.Machine

/-! ### Commands by the result of their rule -/

/-- A command whose rule raises fails with that error, having written the bytes up to OPTR at the raise (R180, R181). -/
theorem exec_failed_of_ruleOf_raised {i : Instr} {s u : State} {e : ErrCode} {info : Word}
    (h : ruleOf i s = .raised e info u) : ∃ t, exec i s = .next t ∧ Failed e info (bytesWritten s u) s t :=
  ⟨_, (exec_eq i s).trans (congrArg _ (runCommand_raised h)), takeError_failed e info s u⟩

/-- A command whose rule raises in its start state fails with nothing written (R180, R181). -/
theorem exec_of_ruleOf_raised_clean {i : Instr} {s : State} {e : ErrCode} {info : Word}
    (h : ruleOf i s = .raised e info s) : exec i s = .next (FailedClean e info s) :=
  (exec_eq i s).trans (congrArg _ (runCommand_raised_clean h))

/-- A command that records no error ran its rule to the end (R180). -/
theorem ruleOf_ok_of_exec {i : Instr} {s t : State} (h : exec i s = .next t) (ht : t.errCode = .noError) :
    ∃ u, ruleOf i s = .ok () u ∧ t = u.complete := by
  rw [exec_eq] at h
  cases h
  rcases runCommand_cases (ruleOf i) s with ⟨u, hr, hc⟩ | ⟨e, info, u, hr, hc⟩
  · exact ⟨u, hr, hc⟩
  · rw [hc] at ht
    obtain rfl : e = .noError := ht
    exact absurd (ruleOf_raisesOnly s i _ info u hr) (noError_not_mem_mayRaise i)

/-! ### One symbol -/

/-- ERRINFO of SymbolNotInTable as a number (R183). -/
theorem absentInfo_eq_ofNat (k : Nat) (x : Symbol) : absentInfo k x = BitVec.ofNat 32 (k * 256 + x.toNat) := by
  have hshift : BitVec.ofNat 32 k <<< 8 = BitVec.ofNat 32 (2 ^ 8 * k) := by
    refine BitVec.eq_of_toNat_eq ?_
    rw [BitVec.toNat_shiftLeft, Nat.shiftLeft_eq, BitVec.toNat_ofNat, BitVec.toNat_ofNat, Nat.mod_mul_mod, Nat.mul_comm]
  rw [absentInfo, hshift, ofNat_or_symbol, Nat.mul_comm (2 ^ 8) k]
  rfl

theorem checkTable_of_not_tvalid {s : State} (h : s.tvalid = false) : checkTable s = .raised .tableInvalid 0 s :=
  if_pos h

theorem codesOf_append (s : State) (xs ys : List Symbol) : codesOf s (xs ++ ys) = codesOf s xs ++ codesOf s ys := by
  simp [codesOf]

section
variable {p : Params} {s : State}

theorem encodeSym_absent (k : Nat) {x : Symbol} (hx : ¬ present s x) :
    encodeSym p k x s = .raised .symbolNotInTable (BitVec.ofNat 32 (k * 256 + x.toNat)) s := by
  rw [encodeSym, if_pos (Nat.eq_zero_of_not_pos hx), absentInfo_eq_ofNat]

/-- A code that does not fit overflows once OPTR has reached the end of OBUF (R150). -/
theorem encodeSym_overflows (k : Nat) {x : Symbol} (hw : WriterInv p s) (hx : present s x)
    (hroom : ¬ RoomFor p s (lenOf s.len x)) :
    ∃ u, encodeSym p k x s = .raised .outputOverflow 0 u ∧ u.optr.toNat = p.obufBytes := by
  rw [encodeSym, if_neg hx.ne']
  exact putBits_overflows _ _ hw hroom

/-- A symbol encoded was present, had room and is appended (R150). -/
theorem encodeSym_eq_ok {k : Nat} {x : Symbol} {t : State} (hw : WriterInv p s) (h : encodeSym p k x s = .ok () t) :
    present s x ∧ RoomFor p s (lenOf s.len x) ∧ Appended s t (codeBits s x) := by
  have hx : present s x := by
    by_contra hx
    rw [encodeSym_absent k hx] at h
    cases h
  have hroom : RoomFor p s (lenOf s.len x) := by
    by_contra hroom
    obtain ⟨u, hu, -⟩ := encodeSym_overflows k hw hx hroom
    rw [hu] at h
    cases h
  obtain ⟨t', ht', ha⟩ := encodeSym_appends k hw hx hroom
  rw [h] at ht'
  cases ht'
  exact ⟨hx, hroom, ha⟩

/-! ### A list of symbols -/

theorem Result.bind_assoc {α β γ : Type} (r : Result α) (f : α → State → Result β) (g : β → State → Result γ) :
    (r.bind f).bind g = r.bind fun a t => (f a t).bind g := by
  cases r <;> rfl

theorem encodeAll_append (k : Nat) (xs ys : List Symbol) :
    encodeAll p k (xs ++ ys) s = (encodeAll p k xs s).bind fun _ t => encodeAll p (k + xs.length) ys t := by
  induction xs generalizing k s with
  | nil => rfl
  | cons x xs ih =>
    rw [List.cons_append, encodeAll, encodeAll, Result.bind_assoc]
    simp only [ih, List.length_cons, Nat.add_assoc, Nat.add_comm 1]

theorem encodeAll_frame (k : Nat) (xs : List Symbol) : StreamFrame p s (encodeAll p k xs s).state := by
  induction xs generalizing k s with
  | nil => exact StreamFrame.refl p s
  | cons x xs ih => exact (encodeSym_frame p k x s).bind fun _ _ _ => ih (k + 1)

/-- After codes that fit, encoding goes on at the next symbol, in a state with the same table (R151). -/
theorem encodeAll_append_of_fits {xs : List Symbol} (ys : List Symbol) (hw : WriterInv p s)
    (hxs : ∀ x ∈ xs, present s x) (hroom : RoomFor p s (codesOf s xs).length) :
    ∃ t, encodeAll p 0 (xs ++ ys) s = encodeAll p xs.length ys t
      ∧ Appended s t (codesOf s xs) ∧ t.streamless = s.streamless := by
  obtain ⟨t, ht, ha⟩ := encodeAll_appends 0 hw hxs hroom
  have hframe := encodeAll_frame (p := p) (s := s) 0 xs
  rw [ht] at hframe
  exact ⟨t, by rw [encodeAll_append, ht, Result.bind_ok, Nat.zero_add], ha, hframe.same⟩

/-- The first symbol without a code raises, with the codes before it written (R151). -/
theorem encodeAll_absent {before : List Symbol} {x : Symbol} (after : List Symbol) (hw : WriterInv p s)
    (hbefore : ∀ y ∈ before, present s y) (hroom : RoomFor p s (codesOf s before).length) (hx : ¬ present s x) :
    ∃ u, encodeAll p 0 (before ++ x :: after) s
        = .raised .symbolNotInTable (BitVec.ofNat 32 (before.length * 256 + x.toNat)) u
      ∧ bytesWritten s u = bytesCompleted s (codesOf s before).length := by
  obtain ⟨t, ht, ⟨hoptr, -⟩, hkept⟩ := encodeAll_append_of_fits (x :: after) hw hbefore hroom
  rw [← present_of_streamless hkept] at hx
  refine ⟨t, ?_, Nat.sub_eq_of_eq_add' hoptr⟩
  rw [ht, encodeAll, encodeSym_absent before.length hx, Result.bind_raised]

/-- The first code that does not fit raises, with OBUF filled up (R151). -/
theorem encodeAll_overflows {before : List Symbol} {x : Symbol} (after : List Symbol) (hw : WriterInv p s)
    (hbefore : ∀ y ∈ before, present s y) (hroom : RoomFor p s (codesOf s before).length) (hx : present s x)
    (hfull : ¬ RoomFor p s (codesOf s (before ++ [x])).length) :
    ∃ u, encodeAll p 0 (before ++ x :: after) s = .raised .outputOverflow 0 u
      ∧ bytesWritten s u = p.obufBytes - s.optr.toNat := by
  obtain ⟨t, ht, ha, hkept⟩ := encodeAll_append_of_fits (x :: after) hw hbefore hroom
  have hlen : (codesOf s (before ++ [x])).length = (codesOf s before).length + lenOf t.len x := by
    rw [codesOf_append, List.length_append, ← codesOf_of_streamless hkept]
    simp
  rw [hlen, ← ha.roomFor_iff] at hfull
  rw [← present_of_streamless hkept] at hx
  obtain ⟨u, hu, hend⟩ := encodeSym_overflows before.length (ha.writerInv hroom) hx hfull
  exact ⟨u, by rw [ht, encodeAll, hu, Result.bind_raised], congrArg (· - s.optr.toNat) hend⟩

/-- Symbols encoded were present and are appended (R151). -/
theorem encodeAll_eq_ok {k : Nat} {xs : List Symbol} {t : State} (hw : WriterInv p s)
    (h : encodeAll p k xs s = .ok () t) :
    (∀ x ∈ xs, present s x) ∧ WriterInv p t ∧ Appended s t (codesOf s xs) := by
  induction xs generalizing k s with
  | nil =>
    cases h
    exact ⟨nofun, hw, appended_nil hw⟩
  | cons x xs ih =>
    obtain ⟨_, u, hu, hrest⟩ := Result.bind_eq_ok h
    obtain ⟨hx, hroom, hau⟩ := encodeSym_eq_ok hw hu
    have hkept := encodeSym_ok_streamless hu
    obtain ⟨hxs, hwt, hat⟩ := ih (hau.writerInv (by rwa [codeBits_length])) hrest
    rw [present_of_streamless hkept] at hxs
    rw [codesOf_of_streamless hkept] at hat
    exact ⟨List.forall_mem_cons.2 ⟨hx, hxs⟩, hwt, hau.trans hat⟩

/-! ### ENCODE -/

theorem encodeRule_of_not_tvalid (ht : s.tvalid = false) : encodeRule p s = .raised .tableInvalid 0 s := by
  rw [encodeRule, checkTable_of_not_tvalid ht, Result.bind_raised]

theorem encodeRule_of_not_fits (ht : s.tvalid = true) (hover : p.ibufBytes < s.iptr.toNat + s.icnt.toNat) :
    encodeRule p s = .raised .rangeError 0 s := by
  rw [encodeRule, checkTable_of_tvalid ht, Result.bind_ok, checkInputRange_of_not_fits hover, Result.bind_raised]

/-- An ENCODE that runs to its end had a table, and the bytes of its range were present and are appended (R151). -/
theorem encodeRule_eq_ok {t : State} (hw : WriterInv p s) (h : encodeRule p s = .ok () t) :
    s.tvalid = true ∧ (∀ x ∈ inputBytes s, present s x) ∧ WriterInv p t
      ∧ Appended s t (codesOf s (inputBytes s)) := by
  have htable : s.tvalid = true := by
    by_contra hf
    rw [encodeRule_of_not_tvalid (Bool.eq_false_iff.2 hf)] at h
    cases h
  have hfits : s.iptr.toNat + s.icnt.toNat ≤ p.ibufBytes := by
    by_contra hover
    rw [encodeRule_of_not_fits htable (Nat.not_le.1 hover)] at h
    cases h
  rw [encodeRule_eq_encodeAll htable hfits] at h
  exact ⟨htable, encodeAll_eq_ok hw h⟩

/-! ### ENCSYM -/

theorem encsymRule_of_not_tvalid (sym : Symbol) (ht : s.tvalid = false) :
    encsymRule p sym s = .raised .tableInvalid 0 s := by
  rw [encsymRule, checkTable_of_not_tvalid ht, Result.bind_raised]

theorem encsymRule_eq_encodeSym (sym : Symbol) (ht : s.tvalid = true) : encsymRule p sym s = encodeSym p 0 sym s := by
  rw [encsymRule, checkTable_of_tvalid ht, Result.bind_ok]

end

end Sys2Proof.Machine
end

section
/-! PROOFS. ENCSYM, and the failures of ENCODE (spec/44_encoder.md R150, R151). -/

namespace Sys2Proof.Machine

/-- Settles O35: with a table ENCSYM encodes one symbol, which is appended, absent, or overflows with OPTR at the end of
OBUF. -/
theorem encsymAppendsCode : Obligations.EncsymAppendsCode := by
  refine fun sym => ⟨fun w => ?_, fun s hw => ⟨fun ht hx hroom => ?_, fun ht => ?_, fun ht hx => ?_,
    fun ht hx hroom => ?_⟩⟩
  · rw [decode_eq_ok_iff, and_iff_right trivial]
    exact eq_wordS_iff_toNat
  · obtain ⟨t, ht', ha⟩ := encodeSym_appends 0 hw hx hroom
    have hrule : ruleOf (.encsym sym) s = .ok () t := (encsymRule_eq_encodeSym sym ht).trans ht'
    obtain ⟨hframe, hbrpos⟩ := ruleOf_footprint (.encsym sym) s
    rw [hrule] at hframe hbrpos
    exact ⟨_, exec_of_ruleOf_ok hrule, hframe.onlyWriterChanged hbrpos, ha.complete⟩
  · exact exec_of_ruleOf_raised_clean (i := .encsym sym) (encsymRule_of_not_tvalid sym ht)
  · have hraise := (encsymRule_eq_encodeSym (p := Config.params) sym ht).trans (encodeSym_absent 0 hx)
    rw [Nat.zero_mul, Nat.zero_add] at hraise
    exact exec_of_ruleOf_raised_clean (i := .encsym sym) hraise
  · obtain ⟨u, hu, hend⟩ := encodeSym_overflows 0 hw hx hroom
    rw [← hend]
    exact exec_failed_of_ruleOf_raised (i := .encsym sym) ((encsymRule_eq_encodeSym sym ht).trans hu)

/-- Settles O37: the two checks raise in the start state; after the codes that fit, the first byte without a code, or
whose code does not fit, raises. -/
theorem encodeFailures : Obligations.EncodeFailures := by
  refine fun s hw => ⟨fun ht => ?_, fun ht hover => ?_, fun ht hfits before x after hin hbefore hroom =>
    ⟨fun hx => ?_, fun hx hfull => ?_⟩⟩
  · exact exec_of_ruleOf_raised_clean (i := .encode) (encodeRule_of_not_tvalid ht)
  · exact exec_of_ruleOf_raised_clean (i := .encode) (encodeRule_of_not_fits ht hover)
  · obtain ⟨u, hu, hbytes⟩ := encodeAll_absent after hw hbefore hroom hx
    rw [← hin] at hu
    rw [← hbytes]
    exact exec_failed_of_ruleOf_raised (i := .encode) ((encodeRule_eq_encodeAll ht hfits).trans hu)
  · obtain ⟨u, hu, hbytes⟩ := encodeAll_overflows after hw hbefore hroom hx hfull
    rw [← hin] at hu
    rw [← hbytes]
    exact exec_failed_of_ruleOf_raised (i := .encode) ((encodeRule_eq_encodeAll ht hfits).trans hu)

end Sys2Proof.Machine
end

section
/-! SUPPORT. The bytes that ENCODE and FLUSH leave in OBUF, as one bit string (spec/43_bit_io.md R137,
spec/44_encoder.md R152). -/

namespace Sys2Proof.Machine

/-! ### Bit strings and their bytes -/

/-- Consecutive pieces of eight bits make up the string they are cut from. -/
theorem flatten_octets (bits : List Bool) (n : Nat) :
    ((List.range n).map fun j => (bits.drop (8 * j)).take 8).flatten = bits.take (8 * n) := by
  induction n with
  | zero => rfl
  | succ n ih =>
    rw [List.range_succ, List.map_append, List.flatten_append, ih, Nat.mul_succ, List.take_add]
    simp

theorem byteBits_map_range (f : Nat → Byte) (n : Nat) :
    byteBits ((List.range n).map f) = ((List.range n).map fun j => msbBits 8 (f j).toNat).flatten := by
  rw [byteBits, List.map_map]
  rfl

theorem pendingBits_of_aligned {s : State} (h : s.bwcnt = 0) : pendingBits s = [] := by
  rw [pendingBits, h]
  rfl

/-- Whole bytes appended to an aligned writer are the bytes of OBUF from the old OPTR up to the new one (R130). -/
theorem Appended.byteBits_written {s t : State} {bits : List Bool} (h : Appended s t bits) (hc : s.bwcnt = 0)
    (hwhole : bits.length % 8 = 0) :
    byteBits ((List.range (t.optr.toNat - s.optr.toNat)).map fun j => t.obufByte (s.optr.toNat + j)) = bits := by
  obtain ⟨hoptr, -, -, -, hbytes, -⟩ := h
  have hcount : bytesCompleted s bits.length = bits.length / 8 := by
    rw [bytesCompleted, hc]
    exact congrArg (· / 8) (Nat.zero_add _)
  rw [pendingBits_of_aligned hc, List.nil_append, hcount] at hbytes
  rw [hoptr, hcount, Nat.add_sub_cancel_left, byteBits_map_range,
    List.map_congr_left fun j hj => hbytes j (List.mem_range.1 hj), flatten_octets, List.take_of_length_le (by omega)]

/-! ### FLUSH -/

/-- Bits that fill the pending part up to a byte, stored at OPTR, are appended (R130, R137). -/
theorem appended_wholeByte {s t : State} {bits : List Bool} (hlen : s.bwcnt.toNat + bits.length = 8)
    (hoptr : t.optr.toNat = s.optr.toNat + 1) (hcnt : t.bwcnt = 0) (hacc : t.bwacc = 0)
    (hbyte : msbBits 8 (t.obufByte s.optr.toNat).toNat = pendingBits s ++ bits)
    (hframe : ∀ k, k ≠ s.optr.toNat → t.obufByte k = s.obufByte k) : Appended s t bits := by
  have hone : bytesCompleted s bits.length = 1 := congrArg (· / 8) hlen
  have hwhole : (pendingBits s ++ bits).length ≤ 8 := by
    rw [List.length_append, pendingBits_length]
    exact hlen.le
  unfold Appended
  rw [hone, hlen, hcnt, hacc]
  refine ⟨hoptr, rfl, Nat.one_pos, ?_, fun j hj => ?_, fun k hk => hframe k (by omega)⟩
  · rw [pendingBits_of_aligned hcnt, List.drop_of_length_le hwhole]
  · obtain rfl : j = 0 := by omega
    rw [Nat.mul_zero, List.drop_zero, List.take_of_length_le hwhole]
    exact hbyte

/-- A FLUSH that records no error appends PAD zero bits, up to the next whole byte (R137). -/
theorem exec_flush_appends {s t : State} (hw : WriterInv Config.params s) (h : exec .flush s = .next t)
    (ht : t.errCode = .noError) :
    t.pad.toNat = (8 - s.bwcnt.toNat) % 8 ∧ Appended s t (List.replicate t.pad.toNat false) := by
  obtain ⟨-, hflush⟩ := flushPadsTheFinalByte
  obtain ⟨haligned, hpending, hfull⟩ := hflush s hw
  rcases Nat.eq_zero_or_pos s.bwcnt.toNat with hzero | hpos
  · have hc : s.bwcnt = 0 := BitVec.eq_of_toNat_eq hzero
    rw [haligned hc] at h
    cases h
    exact ⟨by rw [hzero]; rfl, appended_nil hw⟩
  · obtain ⟨hoptr, hseven, -⟩ := hw
    rcases Nat.lt_or_eq_of_le hoptr with hin | hend
    · obtain ⟨u, hu, hstate, hpad, hbyte, hframe⟩ := hpending hpos hin
      rw [h] at hu
      cases hu
      refine ⟨by omega, ?_⟩
      rw [hpad]
      refine appended_wholeByte ?_ ?_ (by rw [hstate]) (by rw [hstate]) hbyte hframe
      · rw [List.length_replicate]
        omega
      · rw [hstate]
        exact optr_succ hin
    · rw [hfull hpos hend] at h
      cases h
      cases ht

/-! ### ENCODE and then FLUSH -/

/-- ENCODE and FLUSH from an aligned writer, both successful, append the codes of the input range and PAD zero bits up
to a whole byte (R152). -/
theorem encode_flush_appends {s t u : State} (hw : WriterInv Config.params s) (hc : s.bwcnt = 0)
    (hencode : exec .encode s = .next t) (ht : t.errCode = .noError) (hflush : exec .flush t = .next u)
    (hu : u.errCode = .noError) :
    s.tvalid = true ∧ (∀ x ∈ inputBytes s, present s x)
      ∧ u.pad.toNat = (8 - (codesOf s (inputBytes s)).length % 8) % 8
      ∧ Appended s u (codesOf s (inputBytes s) ++ List.replicate u.pad.toNat false) := by
  obtain ⟨e, hrule, rfl⟩ := ruleOf_ok_of_exec hencode ht
  obtain ⟨htable, hpresent, hwe, hcodes⟩ := encodeRule_eq_ok hw hrule
  obtain ⟨hpad, hzeros⟩ := exec_flush_appends (s := e.complete) hwe hflush hu
  have ⟨_, hcnt, _⟩ := hcodes
  refine ⟨htable, hpresent, ?_, hcodes.complete.trans hzeros⟩
  rw [hpad, State.complete_bwcnt, hcnt, hc]
  exact congrArg (fun n => (8 - n % 8) % 8) (Nat.zero_add _)

end Sys2Proof.Machine
end

section
/-! PROOFS. What ENCODE and FLUSH write (spec/44_encoder.md R152). -/

namespace Sys2Proof.Machine

/-- Settles O38: the codes and the pad bits are whole bytes, appended to an aligned writer. -/
theorem encodeThenFlushWritesPayload : Obligations.EncodeThenFlushWritesPayload := by
  intro s t u hw hc _ hencode ht hflush hu
  obtain ⟨-, -, hpad, happ⟩ := encode_flush_appends hw hc hencode ht hflush hu
  have hbytes := happ.byteBits_written hc (by rw [List.length_append, List.length_replicate]; omega)
  obtain ⟨hoptr, -, -, -, -, hframe⟩ := happ
  have hend : u.optr.toNat = s.optr.toNat + ((codesOf s (inputBytes s)).length + 7) / 8 := by
    have hzero : s.bwcnt.toNat = 0 := congrArg BitVec.toNat hc
    rw [hoptr, bytesCompleted, List.length_append, List.length_replicate]
    omega
  exact ⟨hend, hpad, hbytes, fun k hk => hframe k (hoptr ▸ hk)⟩

end Sys2Proof.Machine
end

section
/-! SUPPORT. The decoder over a stream that starts with the codes of a list of symbols (spec/45_decoder.md R160-R163). -/

namespace Sys2Proof.Machine

/-! ### The stream -/

section
variable {p : Params} {s : State}

/-- A stream that starts with a bit gives it to `GetBit`, and goes on with the bits after it (R133). -/
theorem StreamStartsWith.cons {b : Bool} {bits : List Bool} (h : StreamStartsWith s (b :: bits))
    (hlimit : s.limit < 2 ^ 32) : s.brpos.toNat < s.limit ∧ (getBit s).1 = b ∧ StreamStartsWith (getBit s).2 bits := by
  obtain ⟨hle, hbits⟩ := h
  rw [List.length_cons] at hle hbits
  rw [readBits_succ, List.cons.injEq] at hbits
  obtain ⟨hbit, hrest⟩ := hbits
  have hnext : (getBit s).2.brpos.toNat = s.brpos.toNat + 1 := brpos_add_toNat (n := 1) (by omega)
  refine ⟨by omega, hbit, ?_, ?_⟩
  · rw [hnext, Nat.add_assoc, Nat.add_comm 1]
    exact hle
  · rw [hnext]
    exact hrest

theorem readBits_add (q m n : Nat) : readBits s q (m + n) = readBits s q m ++ readBits s (q + m) n := by
  rw [readBits, List.range_add, List.map_append, List.map_map, readBits, readBits]
  simp only [Function.comp_def, Nat.add_assoc]

theorem readBits_of_streamless {t : State} (h : t.streamless = s.streamless) (q n : Nat) :
    readBits t q n = readBits s q n :=
  List.map_congr_left fun i _ => State.streamBit_of_streamless h (q + i)

/-- A stream that starts with two strings starts with the first, and with the second once the first is read. -/
theorem StreamStartsWith.append {xs ys : List Bool} (h : StreamStartsWith s (xs ++ ys)) :
    StreamStartsWith s xs ∧ ∀ t : State, t.streamless = s.streamless →
      t.brpos.toNat = s.brpos.toNat + xs.length → StreamStartsWith t ys := by
  obtain ⟨hle, hbits⟩ := h
  rw [List.length_append] at hle hbits
  rw [readBits_add] at hbits
  obtain ⟨hxs, hys⟩ := List.append_inj hbits (by simp [readBits])
  refine ⟨⟨by omega, hxs⟩, fun t ht hpos => ⟨?_, ?_⟩⟩
  · rw [hpos, State.limit_of_streamless ht]
    omega
  · rw [hpos, readBits_of_streamless ht, hys]

/-! ### One symbol -/

/-- Codes fit their lengths, and no present code is the start of another (R123, properties 1 and 2). -/
def PrefixFree (s : State) : Prop :=
  (∀ x, present s x → codeOf s.code x < 2 ^ lenOf s.len x)
  ∧ ∀ x y, present s x → present s y → x ≠ y → lenOf s.len x ≤ lenOf s.len y →
    codeOf s.code y / 2 ^ (lenOf s.len y - lenOf s.len x) ≠ codeOf s.code x

theorem PrefixFree.of_tableInv {s : State} (htab : TableInv Config.params s) (ht : s.tvalid = true) : PrefixFree s :=
  builtCodesArePrefixFree s htab ht

/-- The only leaf with a symbol's whole code is that symbol (R160). -/
theorem PrefixFree.leafAt_code {x : Symbol} (hpf : PrefixFree s) (hx : present s x) :
    leafAt s (lenOf s.len x) (codeOf s.code x) = some x := by
  obtain ⟨-, hfree⟩ := hpf
  cases h : leafAt s (lenOf s.len x) (codeOf s.code x) with
  | none => exact absurd rfl (leafAt_none.1 h x hx rfl)
  | some y =>
    obtain ⟨hy, hlen, hcode⟩ := leafAt_some h
    by_contra hne
    refine hfree x y hx hy (fun e => hne (congrArg some e.symm)) hlen.ge ?_
    rw [hlen, Nat.sub_self, Nat.pow_zero, Nat.div_one, hcode]

/-- No leaf is met before the last bit of a code (R160). -/
theorem PrefixFree.leafAt_start {x : Symbol} {l n : Nat} (hpf : PrefixFree s) (hx : present s x)
    (hl : l + (n + 1) = lenOf s.len x) : leafAt s l (codeOf s.code x / 2 ^ (n + 1)) = none := by
  obtain ⟨-, hfree⟩ := hpf
  refine leafAt_none.2 fun y hy hlen hcode => ?_
  have hne : y ≠ x := by
    rintro rfl
    omega
  refine hfree y x hy hx hne (by omega) ?_
  rw [hcode, show lenOf s.len x - lenOf s.len y = n + 1 by omega]

theorem hasLonger_start {x : Symbol} {l n : Nat} (hl : l + (n + 1) = lenOf s.len x) :
    hasLonger s l (codeOf s.code x / 2 ^ (n + 1)) = true := by
  refine hasLonger_iff.2 ⟨x, by omega, ?_⟩
  rw [Nat.shiftRight_eq_div_pow, show lenOf s.len x - l = n + 1 by omega]

/-- Reading one more bit of a number, highest bit first. -/
theorem two_mul_div_add_testBit (c n : Nat) : 2 * (c / 2 ^ (n + 1)) + (c.testBit n).toNat = c / 2 ^ n := by
  rw [Nat.testBit_eq_decide_div_mod_eq, Nat.pow_succ, ← Nat.div_div_eq_div_mul]
  rcases Nat.mod_two_eq_zero_or_one (c / 2 ^ n) with h | h
  · simp only [h, Nat.zero_ne_one, decide_false, Bool.toNat_false]
    omega
  · simp only [h, decide_true, Bool.toNat_true]
    omega

/-- The loop of DecodeSym finds the symbol whose last bits the stream starts with, the bits before them being collected
(R160). -/
theorem decodeLoop_finds (k : Nat) {x : Symbol} {n l fuel : Nat} (hpf : PrefixFree s) (hx : present s x)
    (hl : l + (n + 1) = lenOf s.len x) (hfuel : n < fuel) (hlimit : s.limit < 2 ^ 32)
    (hs : StreamStartsWith s (msbBits (n + 1) (codeOf s.code x))) :
    decodeLoop k fuel l (codeOf s.code x / 2 ^ (n + 1)) s
      = .ok x (s.setBrpos (s.brpos + BitVec.ofNat 32 (n + 1))) := by
  induction n generalizing s l fuel with
  | zero =>
    obtain ⟨fuel, rfl⟩ := Nat.exists_eq_add_of_lt hfuel
    rw [msbBits_succ] at hs
    obtain ⟨hin, hbit, -⟩ := hs.cons hlimit
    rw [decodeLoop, if_neg (Nat.not_le.2 hin), hbit, two_mul_div_add_testBit, Nat.pow_zero, Nat.div_one]
    dsimp only
    rw [hl, hpf.leafAt_code hx]
    rfl
  | succ n ih =>
    obtain ⟨fuel, rfl⟩ := Nat.exists_eq_add_of_lt hfuel
    rw [msbBits_succ] at hs
    obtain ⟨hin, hbit, hrest⟩ := hs.cons hlimit
    have hl' : l + 1 + (n + 1) = lenOf s.len x := by omega
    rw [decodeLoop, if_neg (Nat.not_le.2 hin), hbit, two_mul_div_add_testBit]
    dsimp only
    rw [hpf.leafAt_start hx hl', hasLonger_start hl', if_pos rfl]
    refine (ih (s := (getBit s).2) hpf hx hl' (by omega) hlimit hrest).trans ?_
    rw [Nat.add_comm (n + 1) 1, BitVec.ofNat_add 1, ← BitVec.add_assoc]
    rfl

/-- `DecodeSym` finds the present symbol whose code the stream starts with, and reads that code (R160). -/
theorem decodeSym_finds (k : Nat) {x : Symbol} (hpf : PrefixFree s) (hx : present s x) (hlimit : s.limit < 2 ^ 32)
    (hs : StreamStartsWith s (codeBits s x)) :
    decodeSym k s = .ok x (s.setBrpos (s.brpos + BitVec.ofNat 32 (lenOf s.len x))) := by
  obtain ⟨n, hn⟩ := Nat.exists_eq_add_of_lt hx
  rw [Nat.zero_add] at hn
  have hmax := lenOf_le s.len x
  have ⟨hfit, _⟩ := hpf
  have hstart : codeOf s.code x / 2 ^ (n + 1) = 0 := Nat.div_eq_of_lt (hn ▸ hfit x hx)
  rw [codeBits, hn] at hs
  have hloop := decodeLoop_finds k hpf hx (l := 0) (fuel := 255) (by omega) (by omega) hlimit hs
  rw [hstart, ← hn] at hloop
  exact hloop

/-! ### A list of symbols -/

/-- From `s` the decoder can decode the symbols `xs` and append each to the writer: the stream starts with their codes,
and there is room for them (R162, R163). -/
structure Decodable (p : Params) (s : State) (xs : List Symbol) : Prop where
  table : PrefixFree s
  reader : ReaderOk p s
  writer : WriterInv p s
  present : ∀ x ∈ xs, present s x
  stream : xs ≠ [] → StreamStartsWith s (codesOf s xs)
  room : RoomFor p s (8 * xs.length)

/-- From `s` to `t` the codes of `xs` were read, and `xs` appended to the writer; beside that nothing but the writer
differs (R162, R163). -/
structure Decoded (s t : State) (xs : List Symbol) : Prop where
  same : t.streamless = s.streamless
  brpos : t.brpos.toNat = s.brpos.toNat + (codesOf s xs).length
  appended : Appended s t (byteBits xs)

@[simp] theorem byteBits_cons (x : Byte) (xs : List Byte) : byteBits (x :: xs) = msbBits 8 x.toNat ++ byteBits xs := rfl

@[simp] theorem byteBits_length (xs : List Byte) : (byteBits xs).length = 8 * xs.length := by
  induction xs with
  | nil => rfl
  | cons x xs ih =>
    rw [byteBits_cons, List.length_append, msbBits_length, ih, List.length_cons, Nat.mul_succ, Nat.add_comm]

theorem Decoded.cons {t u : State} {x : Symbol} {xs : List Symbol} (h : Decoded s t [x]) (k : Decoded t u xs) :
    Decoded s u (x :: xs) := by
  have hbrpos := k.brpos
  have happ := h.appended.trans k.appended
  rw [codesOf_of_streamless h.same, h.brpos] at hbrpos
  refine ⟨k.same.trans h.same, ?_, ?_⟩
  · rw [hbrpos, Nat.add_assoc, ← List.length_append, ← codesOf_append, List.singleton_append]
  · simpa [byteBits] using happ

theorem PrefixFree.of_streamless {t : State} (hpf : PrefixFree s) (h : t.streamless = s.streamless) :
    PrefixFree t := by
  show PrefixFree t.streamless
  rw [h]
  exact hpf

/-- One symbol is decoded and appended (R162, R163). -/
theorem decodeOne_decodes (k : Nat) {x : Symbol} (hpf : PrefixFree s) (hr : ReaderOk p s) (hw : WriterInv p s)
    (hx : present s x) (hs : StreamStartsWith s (codeBits s x)) (hroom : RoomFor p s 8) :
    ∃ t, decodeOne p k s = .ok () t ∧ Decoded s t [x] := by
  have hlimit := limit_le_of_readerOk hr
  have ⟨hend, _⟩ := hs
  rw [codeBits_length] at hend
  have hread := brpos_add_toNat (b := s.brpos) (n := lenOf s.len x) (by omega)
  have hfind := decodeSym_finds k hpf hx (by omega) hs
  generalize s.brpos + BitVec.ofNat 32 (lenOf s.len x) = q at hread hfind
  obtain ⟨t, ht, happ⟩ := putBits_appends (s := s.setBrpos q) 8 x.toNat hw hroom
  have hone : decodeOne p k s = .ok () t := by rw [decodeOne, hfind, Result.bind_ok, ht]
  have hframe := decodeOne_frame p k s
  have hbrpos : t.brpos = q := by simpa [ht] using putBits_brpos p 8 x.toNat (s.setBrpos q)
  rw [hone] at hframe
  refine ⟨t, hone, hframe.same, ?_, ?_⟩
  · rw [hbrpos, hread, codesOf_cons, codesOf_nil, List.append_nil, codeBits_length]
  · rw [byteBits_cons]
    exact happ

/-- After the first symbol the rest can be decoded. -/
theorem Decodable.tail {t : State} {x : Symbol} {xs : List Symbol} (h : Decodable p s (x :: xs))
    (hone : Decoded s t [x]) : Decodable p t xs := by
  have hroom : RoomFor p s (8 + 8 * xs.length) := h.room.mono (by rw [List.length_cons]; omega)
  have hpresent := present_of_streamless hone.same
  have hcodes := codesOf_of_streamless hone.same
  have hbrlen : t.brlen = s.brlen := (congrArg State.brlen hone.same :)
  have hbrpos := hone.brpos
  obtain ⟨-, hxs⟩ := List.forall_mem_cons.1 h.present
  obtain ⟨-, hrest⟩ := (h.stream (List.cons_ne_nil x xs)).append
  rw [codesOf_cons, codesOf_nil, List.append_nil] at hbrpos
  exact {
    table := h.table.of_streamless hone.same
    reader := (congrArg BitVec.toNat hbrlen).trans_le h.reader
    writer := hone.appended.writerInv (hroom.mono (Nat.le_add_right _ _))
    present := hpresent ▸ hxs
    stream := fun _ => hcodes ▸ hrest t hone.same hbrpos
    room := (hone.appended.roomFor_iff _).2 hroom }

/-- A symbol still to come has a bit before the limit. -/
theorem Decodable.brpos_lt_limit {x : Symbol} {xs : List Symbol} (h : Decodable p s (x :: xs)) :
    s.brpos.toNat < s.limit := by
  obtain ⟨hend, -⟩ := h.stream (List.cons_ne_nil x xs)
  have hx : 0 < lenOf s.len x := h.present x List.mem_cons_self
  rw [codesOf_cons, List.length_append, codeBits_length] at hend
  omega

/-- Both loops decode and append the symbols whose codes the stream starts with, and go on after them (R162, R163). -/
theorem Decodable.loops {xs : List Symbol} (k : Nat) (h : Decodable p s xs) :
    ∃ t, Decoded s t xs
      ∧ (∀ n, decodeFrom p (xs.length + n) k s = decodeFrom p n (k + xs.length) t)
      ∧ ∀ fuel, decodeAllFrom p (xs.length + fuel) k s = decodeAllFrom p fuel (k + xs.length) t := by
  induction xs generalizing k s with
  | nil => exact ⟨s, ⟨rfl, rfl, appended_nil h.writer⟩, fun n => by simp, fun fuel => by simp⟩
  | cons x xs ih =>
    obtain ⟨hstream, -⟩ := (h.stream (List.cons_ne_nil x xs)).append
    obtain ⟨t, ht, hone⟩ := decodeOne_decodes k h.table h.reader h.writer (h.present x List.mem_cons_self)
      hstream (h.room.mono (by rw [List.length_cons]; omega))
    obtain ⟨u, hrest, hfrom, hall⟩ := ih (k + 1) (h.tail hone)
    refine ⟨u, hone.cons hrest, fun n => ?_, fun fuel => ?_⟩
    · rw [List.length_cons, Nat.add_right_comm, decodeFrom, ht, Result.bind_ok, hfrom, Nat.add_right_comm k,
        Nat.add_assoc]
    · rw [List.length_cons, Nat.add_right_comm, decodeAllFrom, if_pos h.brpos_lt_limit, ht, Result.bind_ok, hall,
        Nat.add_right_comm k, Nat.add_assoc]

/-! ### DECODE and DECALL -/

theorem checkDecoder_ok (ht : s.tvalid = true) (hr : ReaderOk p s) : checkDecoder p s = .ok () s := by
  rw [checkDecoder, checkTable_of_tvalid ht, Result.bind_ok, checkReader, if_neg (Nat.not_lt.2 hr)]

/-- DECODE of the number of symbols that the stream holds decodes them all (R162). -/
theorem decodeRule_ok {xs : List Symbol} (ht : s.tvalid = true) (h : Decodable p s xs)
    (hcount : s.dcnt.toNat = xs.length) : ∃ t, decodeRule p s = .ok () (t.setRdata s.dcnt) ∧ Decoded s t xs := by
  obtain ⟨t, hdecoded, hfrom, -⟩ := h.loops 0
  have hdcnt : t.dcnt = s.dcnt := (congrArg State.dcnt hdecoded.same :)
  refine ⟨t, ?_, hdecoded⟩
  rw [decodeRule, checkDecoder_ok ht h.reader, Result.bind_ok, hcount]
  have hloop := hfrom 0
  rw [Nat.add_zero] at hloop
  rw [hloop, decodeFrom, Result.bind_ok, hdcnt]

theorem decodeAllFrom_at_limit {k fuel : Nat} (h : s.limit ≤ s.brpos.toNat) : decodeAllFrom p fuel k s = .ok k s := by
  cases fuel with
  | zero => rfl
  | succ fuel => rw [decodeAllFrom, if_neg (Nat.not_lt.2 h)]

/-- Every present symbol has at least one bit, so a list has no more symbols than bits (R163). -/
theorem length_le_codesOf_length {xs : List Symbol} (h : ∀ x ∈ xs, present s x) :
    xs.length ≤ (codesOf s xs).length := by
  induction xs with
  | nil => exact le_rfl
  | cons x xs ih =>
    obtain ⟨hx, hxs⟩ := List.forall_mem_cons.1 h
    have := ih hxs
    rw [codesOf_cons, List.length_append, codeBits_length, List.length_cons]
    omega

/-- DECALL of a stream that ends with the last of its symbols decodes them all (R163). -/
theorem decallRule_ok {xs : List Symbol} (ht : s.tvalid = true) (h : Decodable p s xs)
    (hend : s.brpos.toNat + (codesOf s xs).length = s.limit) :
    ∃ t, decallRule p s = .ok () (t.setRdata (BitVec.ofNat 32 xs.length)) ∧ Decoded s t xs := by
  obtain ⟨t, hdecoded, -, hall⟩ := h.loops 0
  have hlength := length_le_codesOf_length h.present
  have hlimit := State.limit_of_streamless hdecoded.same
  have hpos := hdecoded.brpos
  refine ⟨t, ?_, hdecoded⟩
  have hloop := hall (s.limit - s.brpos.toNat - xs.length)
  rw [Nat.add_sub_cancel' (by omega), decodeAllFrom_at_limit (s := t) (by omega), Nat.zero_add] at hloop
  rw [decallRule, checkDecoder_ok ht h.reader, Result.bind_ok, hloop, Result.bind_ok]

end

end Sys2Proof.Machine
end

section
/-! SUPPORT. A payload moved from OBUF to IBUF is the decoder's stream (spec/44_encoder.md R152, spec/45_decoder.md
R165). -/

namespace Sys2Proof.Machine

/-! ### Bytes and their bits -/

theorem msbBits_byte_injective {x y : Byte} (h : msbBits 8 x.toNat = msbBits 8 y.toNat) : x = y := by
  refine BitVec.eq_of_getLsbD_eq fun i hi => ?_
  have hbit := List.map_inj_left.1 h (7 - i) (List.mem_range.2 (by omega))
  rwa [show 8 - 1 - (7 - i) = i by omega] at hbit

/-- A list of bytes is determined by its bits (R162). -/
theorem byteBits_injective {xs ys : List Byte} (h : byteBits xs = byteBits ys) : xs = ys := by
  have hlen := congrArg List.length h
  rw [byteBits_length, byteBits_length] at hlen
  induction xs generalizing ys with
  | nil => exact (List.eq_nil_of_length_eq_zero (by simpa using hlen.symm)).symm
  | cons x xs ih =>
    cases ys with
    | nil => simp at hlen
    | cons y ys =>
      rw [byteBits_cons, byteBits_cons] at h
      obtain ⟨hx, hxs⟩ := List.append_inj h (by simp)
      rw [List.length_cons, List.length_cons] at hlen
      rw [msbBits_byte_injective hx, ih hxs (by omega)]

theorem byteBits_append (xs ys : List Byte) : byteBits (xs ++ ys) = byteBits xs ++ byteBits ys := by
  simp [byteBits]

/-! ### The stream in IBUF -/

/-- The eight bits of the stream in byte `k` (R38, R67). -/
theorem readBits_byte (s : State) (k : Nat) : readBits s (8 * k) 8 = msbBits 8 (s.ibufByte k).toNat := by
  refine List.map_congr_left fun i hi => ?_
  have hi := List.mem_range.1 hi
  rw [State.streamBit, show (8 * k + i) / 8 = k by omega, show 7 - (8 * k + i) % 8 = 8 - 1 - i by omega]
  rfl

/-- The bits of the stream in the first `n` bytes of IBUF (R38, R67). -/
theorem readBits_bytes (s : State) (n : Nat) : readBits s 0 (8 * n) = byteBits ((List.range n).map s.ibufByte) := by
  induction n with
  | zero => rfl
  | succ n ih =>
    rw [Nat.mul_succ, readBits_add, ih, Nat.zero_add, readBits_byte, List.range_succ, List.map_append,
      byteBits_append]
    simp [byteBits]

/-- The bytes that whole bits appended to an aligned writer filled, read as a stream from IBUF, are those bits. -/
theorem Appended.readBits_moved {s u v : State} {bits : List Bool} (h : Appended s u bits) (hc : s.bwcnt = 0)
    (hwhole : bits.length % 8 = 0)
    (hmoved : ∀ k, k < u.optr.toNat - s.optr.toNat → v.ibufByte k = u.obufByte (s.optr.toNat + k)) :
    readBits v 0 (8 * (u.optr.toNat - s.optr.toNat)) = bits := by
  rw [readBits_bytes, List.map_congr_left fun k hk => hmoved k (List.mem_range.1 hk)]
  exact h.byteBits_written hc hwhole

/-- A stream of some bits and BRPAD pad bits, to be read from its start, starts with those bits and has its limit after
them (R132, R165). -/
theorem streamStartsWith_of_padded {v : State} {bits : List Bool} (hpos : v.brpos = 0)
    (h : readBits v 0 (8 * v.brlen.toNat) = bits ++ List.replicate v.brpad.toNat false) :
    v.limit = bits.length ∧ StreamStartsWith v bits := by
  have hlen : 8 * v.brlen.toNat = bits.length + v.brpad.toNat := by simpa [readBits] using congrArg List.length h
  have hlimit : v.limit = bits.length := by
    rw [State.limit, hlen, Nat.add_sub_cancel]
  have hzero : v.brpos.toNat = 0 := congrArg BitVec.toNat hpos
  rw [hlen, readBits_add] at h
  obtain ⟨hbits, -⟩ := List.append_inj h (by simp [readBits])
  unfold StreamStartsWith
  rw [hzero, Nat.zero_add, hlimit]
  exact ⟨rfl, le_rfl, hbits⟩

/-- Codes depend on LENTAB alone, once a table is built (R123, property 6). -/
theorem codesOf_eq_of_len {p : Params} {s v : State} (hs : TableInv p s) (hst : s.tvalid = true) (hv : TableInv p v)
    (hvt : v.tvalid = true) (hlen : v.len = s.len) : codesOf v = codesOf s := by
  obtain ⟨-, hcs⟩ := hs hst
  obtain ⟨-, hcv⟩ := hv hvt
  have hcode : v.code = s.code := by rw [hcs, hcv, hlen]
  have hbits : codeBits v = codeBits s := by
    funext x
    rw [codeBits, codeBits, hlen, hcode]
  funext xs
  rw [codesOf, codesOf, hbits]

/-- From an empty aligned writer, whole symbols appended are the bytes of OBUF from its start (R130, R162). -/
theorem Appended.obufByte_eq {v w : State} {xs : List Byte} (h : Appended v w (byteBits xs)) (ho : v.optr = 0)
    (hc : v.bwcnt = 0) : (List.range xs.length).map w.obufByte = xs := by
  have hwritten := h.byteBits_written hc (by simp)
  obtain ⟨hoptr, -⟩ := h
  have hend : w.optr.toNat - v.optr.toNat = xs.length := by
    rw [hoptr, bytesCompleted, hc, byteBits_length]
    simp
  rw [hend, ho] at hwritten
  simpa using byteBits_injective hwritten

end Sys2Proof.Machine
end

section
/-! PROOFS. The round trip (spec/45_decoder.md R165). -/

namespace Sys2Proof.Machine

/-- Settles O44: the stream is the codes of the input up to the limit, so that both commands decode it, and append it to
a writer at the start of OBUF. -/
theorem decodeInvertsEncode : Obligations.DecodeInvertsEncode := by
  intro s t u v hw htab hc _ _ hencode ht hflush hu hlen hvt hvtab hverr hvo hvc hva hvpos hdcnt hbrlen hbrpad
    hreader hroom hmoved i hi
  obtain ⟨hst, hpresent, hpad, happ⟩ := encode_flush_appends hw hc hencode ht hflush hu
  have hcodes := codesOf_eq_of_len htab hst hvtab hvt hlen
  have hstream := happ.readBits_moved hc (by rw [List.length_append, List.length_replicate]; omega) hmoved
  rw [← hbrlen, ← hbrpad, ← hcodes] at hstream
  obtain ⟨hlimit, hstart⟩ := streamStartsWith_of_padded hvpos hstream
  have hlength := inputBytes_length s
  have hdec : Decodable Config.params v (inputBytes s) := {
    table := PrefixFree.of_tableInv hvtab hvt
    reader := hreader
    writer := by simp [WriterInv, hvo, hvc, hva]
    present := by simpa only [present, hlen] using hpresent
    stream := fun _ => hstart
    room := by
      rw [hlength, RoomFor, hvo, hvc]
      simpa using hroom }
  have hzero : v.brpos.toNat = 0 := congrArg BitVec.toNat hvpos
  have hrule : ∃ d, ruleOf i v = .ok () (d.setRdata s.icnt) ∧ Decoded v d (inputBytes s) := by
    rcases hi with rfl | rfl
    · rw [← hdcnt]
      exact decodeRule_ok hvt hdec (by rw [hdcnt, hlength])
    · have hall := decallRule_ok hvt hdec (by rw [hzero, Nat.zero_add, hlimit])
      rwa [hlength, BitVec.ofNat_toNat, BitVec.setWidth_eq] at hall
  obtain ⟨d, hok, hdecoded⟩ := hrule
  refine ⟨_, exec_of_ruleOf_ok hok, ?_, rfl, ?_, ?_⟩
  · exact (congrArg State.errCode hdecoded.same :).trans hverr
  · rw [hlimit, ← Nat.zero_add (List.length _), ← hzero]
    exact hdecoded.brpos
  · rw [← hlength]
    exact hdecoded.appended.obufByte_eq hvo hvc

end Sys2Proof.Machine
end

section
/-! PROOFS. DECSYM, DECODE and DECALL where they succeed (spec/45_decoder.md R160-R163). -/

namespace Sys2Proof.Machine

/-- Settles O39: no present code is the start of another, so that the symbol found is the one whose code the stream
starts with. -/
theorem decsymReturnsTheSymbol : Obligations.DecsymReturnsTheSymbol := by
  refine ⟨fun w => decode_eq_ok_iff.trans (and_iff_right trivial), fun s x htab ht hr hx hs => ?_⟩
  have hlimit := limit_le_of_readerOk hr
  have hfind := decodeSym_finds 0 (PrefixFree.of_tableInv htab ht) hx (by omega) hs
  have hrule : ruleOf .decsym s
      = .ok () ((s.setBrpos (s.brpos + BitVec.ofNat 32 (lenOf s.len x))).setRdata (x.setWidth 32)) := by
    rw [ruleOf, decsymRule, checkDecoder_ok ht hr, Result.bind_ok, hfind, Result.bind_ok]
  rw [exec_of_ruleOf_ok hrule, BitVec.ofNat_add, BitVec.ofNat_toNat, BitVec.ofNat_toNat, BitVec.setWidth_eq]
  rfl

/-- After decoding only the writer and BRPOS differ, and BRPOS stands after the codes read (R162, R163). -/
theorem Decoded.state_eq {s t : State} {xs : List Symbol} (h : Decoded s t xs) :
    t = { s with
      obuf := t.obuf, optr := t.optr, bwacc := t.bwacc, bwcnt := t.bwcnt
      brpos := BitVec.ofNat 32 (s.brpos.toNat + (codesOf s xs).length) } := by
  rw [← h.brpos, BitVec.ofNat_toNat, BitVec.setWidth_eq]
  exact State.eq_of_streamless h.same

/-- Settles O41: DECODE decodes the symbols whose codes the stream starts with, and the writer's room is theirs. -/
theorem decodeEmitsDeclaredCount : Obligations.DecodeEmitsDeclaredCount := by
  refine ⟨fun w => decode_eq_ok_iff.trans (and_iff_right trivial),
    fun s xs hw htab ht hr hcount hxs hstream hroom => ?_⟩
  obtain ⟨t, hrule, hdecoded⟩ :=
    decodeRule_ok ht ⟨PrefixFree.of_tableInv htab ht, hr, hw, hxs, hstream, hroom⟩ hcount.symm
  exact ⟨_, exec_of_ruleOf_ok (i := .decode) hrule,
    congrArg (fun u : State => (u.setRdata s.dcnt).complete) hdecoded.state_eq, hdecoded.appended⟩

/-- Settles O42: at the limit the loop makes no pass; before it, DECALL decodes the symbols whose codes end there. -/
theorem decallEmitsUntilTheLimit : Obligations.DecallEmitsUntilTheLimit := by
  refine ⟨fun w => decode_eq_ok_iff.trans (and_iff_right trivial),
    fun s ht hr => ⟨fun hend => ?_, fun xs hw htab hxs hstream hend hroom => ?_⟩⟩
  · have hrule : ruleOf .decall s = .ok () (s.setRdata 0) := by
      rw [ruleOf, decallRule, checkDecoder_ok ht hr, Result.bind_ok, decodeAllFrom_at_limit hend, Result.bind_ok]
      rfl
    exact exec_of_ruleOf_ok hrule
  · obtain ⟨t, hrule, hdecoded⟩ :=
      decallRule_ok ht ⟨PrefixFree.of_tableInv htab ht, hr, hw, hxs, fun _ => hstream, hroom⟩ hend
    refine ⟨_, exec_of_ruleOf_ok (i := .decall) hrule, ?_, hdecoded.appended⟩
    rw [← hend]
    exact congrArg (fun u : State => (u.setRdata (BitVec.ofNat 32 xs.length)).complete) hdecoded.state_eq

end Sys2Proof.Machine
end

section
/-! SUPPORT. The walk of DecodeSym through the tree of codes, by the bits read: internal nodes, missing nodes and the
end of the stream (spec/45_decoder.md R160, R164). -/

namespace Sys2Proof.Machine

/-! ### Bit strings as numbers -/

/-- A bit string of fixed length is that of one number. -/
theorem msbBits_injOn {n v w : Nat} (hv : v < 2 ^ n) (hw : w < 2 ^ n) (h : msbBits n v = msbBits n w) : v = w := by
  refine Nat.eq_of_testBit_eq fun i => ?_
  by_cases hi : i < n
  · have hbit := List.map_inj_left.1 h (n - 1 - i) (List.mem_range.2 (by omega))
    rwa [show n - 1 - (n - 1 - i) = i by omega] at hbit
  · have hpow := Nat.pow_le_pow_right Nat.two_pos (Nat.not_lt.1 hi)
    rw [Nat.testBit_lt_two_pow (hv.trans_le hpow), Nat.testBit_lt_two_pow (hw.trans_le hpow)]

/-- The first bits of a number are those of the number shifted right. -/
theorem msbBits_add (m n v : Nat) : msbBits (m + n) v = msbBits m (v / 2 ^ n) ++ msbBits n v := by
  induction m with
  | zero => simp
  | succ m ih => rw [Nat.add_right_comm, msbBits_succ, ih, msbBits_succ, Nat.testBit_div_two_pow, List.cons_append]

/-- A number of `n + m` bits starts with the bits of its high part. -/
theorem msbBits_prefix (n m c : Nat) : msbBits n (c / 2 ^ m) <+: msbBits (n + m) c := by
  rw [msbBits_add]
  exact List.prefix_append _ _

/-- A number of `n + m` bits that starts with the `n` bits of `v` has `v` as its high part. -/
theorem div_eq_of_msbBits_prefix {n m c v : Nat} (hc : c < 2 ^ (n + m)) (hv : v < 2 ^ n)
    (h : msbBits n v <+: msbBits (n + m) c) : c / 2 ^ m = v := by
  have hhigh : c / 2 ^ m < 2 ^ n := Nat.div_lt_of_lt_mul (by rwa [Nat.mul_comm, ← Nat.pow_add])
  have hbits := List.prefix_of_prefix_length_le h (msbBits_prefix n m c) (by simp)
  exact (msbBits_injOn hv hhigh (hbits.eq_of_length (by simp))).symm

/-! ### The bits collected -/

section
variable {s : State}

/-- The `n` bits of the stream from bit `q` on, collected as the number `v` (R160). -/
def Collected (s : State) (q n v : Nat) : Prop := v < 2 ^ n ∧ msbBits n v = readBits s q n

theorem collected_zero (s : State) (q : Nat) : Collected s q 0 0 := ⟨Nat.one_pos, rfl⟩

/-- The next bit is collected at the low end (R160). -/
theorem Collected.succ {q n v : Nat} (h : Collected s q n v) :
    Collected s q (n + 1) (2 * v + (s.streamBit (q + n)).toNat) := by
  obtain ⟨hlt, hbits⟩ := h
  have hbit := (s.streamBit (q + n)).toNat_le
  refine ⟨by rw [Nat.pow_succ]; omega, ?_⟩
  rw [msbBits_append_bit, hbits, readBits_add]
  rfl

/-- At an internal node no code ends, and one goes on (R160, R164). -/
theorem AtInternalNode.search {q n v : Nat} (hnode : AtInternalNode s q n) (hpf : PrefixFree s)
    (hv : Collected s q n v) : leafAt s n v = none ∧ hasLonger s n v = true := by
  obtain ⟨x, hx, hlonger, hprefix⟩ := hnode
  obtain ⟨hlt, hbits⟩ := hv
  have ⟨hfit, _⟩ := hpf
  obtain ⟨m, hm⟩ := Nat.exists_eq_add_of_lt hlonger
  have hcode : codeOf s.code x < 2 ^ (n + (m + 1)) := hm ▸ hfit x hx
  rw [← hbits, codeBits, hm] at hprefix
  rw [← div_eq_of_msbBits_prefix hcode hlt hprefix]
  exact ⟨hpf.leafAt_start hx hm.symm, hasLonger_start hm.symm⟩

/-- At a missing node no code ends, and none goes on (R160, R164). -/
theorem AtMissingNode.search {q n v : Nat} (hnode : AtMissingNode s q n) (hv : Collected s q n v) :
    leafAt s n v = none ∧ hasLonger s n v = false := by
  obtain ⟨-, hbits⟩ := hv
  rw [AtMissingNode, ← hbits] at hnode
  refine ⟨leafAt_none.2 fun x hx hlen hcode => hnode x hx ?_, Bool.eq_false_iff.2 fun hlonger => ?_⟩
  · rw [codeBits, hlen, hcode]
  · obtain ⟨x, hlt, hcode⟩ := hasLonger_iff.1 hlonger
    refine hnode x (Nat.zero_lt_of_lt hlt) ?_
    have hprefix := msbBits_prefix n (lenOf s.len x - n) (codeOf s.code x)
    rwa [← Nat.shiftRight_eq_div_pow, hcode, Nat.add_sub_cancel' hlt.le] at hprefix

/-- The nodes before an internal node are internal (R164). -/
theorem AtInternalNode.of_succ {q n : Nat} (h : AtInternalNode s q (n + 1)) : AtInternalNode s q n := by
  obtain ⟨x, hx, hlonger, hprefix⟩ := h
  rw [readBits_add] at hprefix
  exact ⟨x, hx, by omega, (List.prefix_append _ _).trans hprefix⟩

/-! ### The walk -/

/-- The state in which the next `n` bits of the stream have been read (R133). -/
def State.skipBits (s : State) (n : Nat) : State := s.setBrpos (s.brpos + BitVec.ofNat 32 n)

theorem State.skipBits_zero (s : State) : s.skipBits 0 = s := by
  show s.setBrpos (s.brpos + 0#32) = s
  rw [BitVec.add_zero]
  rfl

theorem leafAt_skipBits (s : State) (n : Nat) : leafAt (s.skipBits n) = leafAt s := rfl

theorem hasLonger_skipBits (s : State) (n : Nat) : hasLonger (s.skipBits n) = hasLonger s := rfl

/-- The bit after the `n` read is taken from the stream, and one more is read (R133). -/
theorem getBit_skipBits {n : Nat} (h : s.brpos.toNat + n < 2 ^ 32) :
    getBit (s.skipBits n) = (s.streamBit (s.brpos.toNat + n), s.skipBits (n + 1)) := by
  refine Prod.ext ?_ ?_
  · exact congrArg s.streamBit (brpos_add_toNat h)
  · show s.setBrpos (s.brpos + BitVec.ofNat 32 n + 1#32) = s.setBrpos (s.brpos + BitVec.ofNat 32 (n + 1))
    rw [BitVec.add_assoc, ← BitVec.ofNat_add]

/-- Before the limit a bit is left to read. -/
theorem skipBits_lt_limit {n : Nat} (hbit : s.brpos.toNat + n < s.limit) (hlimit : s.limit < 2 ^ 32) :
    ¬ (s.skipBits n).limit ≤ (s.skipBits n).brpos.toNat := by
  have hpos : (s.skipBits n).brpos.toNat = s.brpos.toNat + n := brpos_add_toNat (by omega)
  rw [hpos]
  exact Nat.not_le.2 hbit

/-- The loop of DecodeSym goes on from an internal node (R160). -/
theorem decodeLoop_internal (k fuel : Nat) {n v : Nat} (hpf : PrefixFree s) (hlimit : s.limit < 2 ^ 32)
    (hbit : s.brpos.toNat + n < s.limit) (hv : Collected s s.brpos.toNat n v)
    (hnode : AtInternalNode s s.brpos.toNat (n + 1)) :
    ∃ v', Collected s s.brpos.toNat (n + 1) v'
      ∧ decodeLoop k (fuel + 1) n v (s.skipBits n) = decodeLoop k fuel (n + 1) v' (s.skipBits (n + 1)) := by
  obtain ⟨hleaf, hlonger⟩ := hnode.search hpf hv.succ
  refine ⟨_, hv.succ, ?_⟩
  rw [decodeLoop, if_neg (skipBits_lt_limit hbit hlimit), getBit_skipBits (by omega)]
  dsimp only
  rw [leafAt_skipBits, hleaf, hasLonger_skipBits, if_pos hlonger]

/-- The loop of DecodeSym fails at a missing node, with the index of the bit that led there (R160, R183). -/
theorem decodeLoop_missing (k fuel : Nat) {n v : Nat} (hlimit : s.limit < 2 ^ 32)
    (hbit : s.brpos.toNat + n < s.limit) (hv : Collected s s.brpos.toNat n v)
    (hnode : AtMissingNode s s.brpos.toNat (n + 1)) :
    decodeLoop k (fuel + 1) n v (s.skipBits n)
      = .raised .invalidCode (BitVec.ofNat 32 (s.brpos.toNat + n)) (s.skipBits (n + 1)) := by
  obtain ⟨hleaf, hlonger⟩ := hnode.search hv.succ
  rw [decodeLoop, if_neg (skipBits_lt_limit hbit hlimit), getBit_skipBits (by omega)]
  dsimp only
  rw [leafAt_skipBits, hleaf, hasLonger_skipBits, hlonger, BitVec.ofNat_add, BitVec.ofNat_toNat, BitVec.setWidth_eq]
  rfl

/-- At the root or an internal node, `DecodeSym` has collected the bits that lead there, and has passes left (R160). -/
theorem decodeSym_reaches (k : Nat) {n : Nat} (hpf : PrefixFree s) (hlimit : s.limit < 2 ^ 32)
    (hend : s.brpos.toNat + n ≤ s.limit) (hnode : n = 0 ∨ AtInternalNode s s.brpos.toNat n) :
    ∃ v fuel, Collected s s.brpos.toNat n v ∧ n + (fuel + 1) = 255
      ∧ decodeSym k s = decodeLoop k (fuel + 1) n v (s.skipBits n) := by
  induction n with
  | zero => exact ⟨0, 254, collected_zero _ _, rfl, by rw [State.skipBits_zero, decodeSym]⟩
  | succ n ih =>
    have hnode := hnode.resolve_left n.succ_ne_zero
    obtain ⟨v, fuel, hv, hfuel, hsym⟩ := ih (by omega) (.inr hnode.of_succ)
    obtain ⟨v', hv', hloop⟩ := decodeLoop_internal k fuel hpf hlimit (by omega) hv hnode
    obtain ⟨x, -, hlonger, -⟩ := hnode
    have hmax := lenOf_le s.len x
    obtain ⟨fuel, rfl⟩ : ∃ fuel', fuel = fuel' + 1 := ⟨fuel - 1, by omega⟩
    exact ⟨v', fuel, hv', by omega, hsym.trans hloop⟩

/-- `DecodeSym(k)` fails with TruncatedPayload(k) where the stream ends at the root or at an internal node (R160). -/
theorem decodeSym_truncated (k : Nat) (hpf : PrefixFree s) (hlimit : s.limit < 2 ^ 32)
    (h : StreamEndsMidCode s s.brpos.toNat) :
    ∃ n, decodeSym k s = .raised .truncatedPayload (BitVec.ofNat 32 k) (s.skipBits n) := by
  by_cases hroot : s.limit ≤ s.brpos.toNat
  · exact ⟨0, by rw [State.skipBits_zero, decodeSym, decodeLoop, if_pos hroot]⟩
  · have hnode := h.resolve_left hroot
    obtain ⟨n, hn⟩ := Nat.exists_eq_add_of_le (Nat.le_of_not_le hroot)
    rw [hn, Nat.add_sub_cancel_left] at hnode
    obtain ⟨v, fuel, -, -, hsym⟩ := decodeSym_reaches k hpf hlimit hn.ge (.inr hnode)
    have hend : (s.skipBits n).limit ≤ (s.skipBits n).brpos.toNat := (hn.trans (brpos_add_toNat (by omega)).symm).le
    exact ⟨n, by rw [hsym, decodeLoop, if_pos hend]⟩

/-- `DecodeSym` fails with InvalidCode and the index of the bit at which the stream leaves the tree (R160, R183). -/
theorem decodeSym_invalid (k : Nat) {b : Nat} (hpf : PrefixFree s) (hlimit : s.limit < 2 ^ 32)
    (h : StreamLeavesTree s s.brpos.toNat b) :
    ∃ n, decodeSym k s = .raised .invalidCode (BitVec.ofNat 32 b) (s.skipBits n) := by
  obtain ⟨hge, hlt, hnode, hmissing⟩ := h
  obtain ⟨n, rfl⟩ := Nat.exists_eq_add_of_le hge
  rw [Nat.add_sub_cancel_left] at hnode
  rw [Nat.add_assoc, Nat.add_sub_cancel_left] at hmissing
  obtain ⟨v, fuel, hv, -, hsym⟩ := decodeSym_reaches k hpf hlimit hlt.le (hnode.imp_left (by omega))
  exact ⟨n + 1, hsym.trans (decodeLoop_missing k fuel hlimit hlt hv hmissing)⟩

end

end Sys2Proof.Machine
end

section
/-! PROOFS. How DECSYM fails (spec/45_decoder.md R160, R161). -/

namespace Sys2Proof.Machine

/-! ### The checks of the decoding commands -/

section
variable {p : Params} {s : State}

theorem checkDecoder_of_not_tvalid (ht : s.tvalid = false) : checkDecoder p s = .raised .tableInvalid 0 s := by
  rw [checkDecoder, checkTable_of_not_tvalid ht, Result.bind_raised]

theorem checkDecoder_of_not_readerOk (ht : s.tvalid = true) (hr : ¬ ReaderOk p s) :
    checkDecoder p s = .raised .rangeError 1 s := by
  rw [checkDecoder, checkTable_of_tvalid ht, Result.bind_ok, checkReader, if_pos (Nat.not_le.1 hr)]

/-- An error raised with OPTR as at the start changes ERRCODE and ERRINFO only, and completes (R180, R181). -/
theorem runCommand_raised_of_optr {rule : State → Result Unit} {u : State} {e : ErrCode} {info : Word}
    (h : rule s = .raised e info u) (hoptr : u.optr = s.optr) : runCommand rule s = FailedClean e info s := by
  rw [runCommand_raised h, takeError_of_optr hoptr]
  rfl

/-! ### DECSYM -/

/-- DECSYM fails as `DecodeSym` does, with nothing written (R161). -/
theorem decsymRule_failed {e : ErrCode} {info : Word} {n : Nat} (ht : s.tvalid = true) (hr : ReaderOk p s)
    (h : decodeSym 0 s = .raised e info (s.skipBits n)) : runCommand (decsymRule p) s = FailedClean e info s := by
  refine runCommand_raised_of_optr (u := s.skipBits n) ?_ rfl
  rw [decsymRule, checkDecoder_ok ht hr, Result.bind_ok, h, Result.bind_raised]

end

/-- Settles O40: the checks raise in the start state, and `DecodeSym` moves BRPOS only. -/
theorem decsymFailures : Obligations.DecsymFailures := by
  refine fun s => ⟨fun ht => ?_, fun ht hr => ?_, fun ht hr htab => ?_⟩
  · exact exec_of_ruleOf_raised_clean (i := .decsym)
      (by rw [ruleOf, decsymRule, checkDecoder_of_not_tvalid ht, Result.bind_raised])
  · exact exec_of_ruleOf_raised_clean (i := .decsym)
      (by rw [ruleOf, decsymRule, checkDecoder_of_not_readerOk ht hr, Result.bind_raised])
  · have hpf := PrefixFree.of_tableInv htab ht
    have hmax := limit_le_of_readerOk hr
    have hlimit : s.limit < 2 ^ 32 := by omega
    refine ⟨fun hend => ?_, fun b hleaves => ?_⟩
    · obtain ⟨n, hsym⟩ := decodeSym_truncated 0 hpf hlimit hend
      exact congrArg _ (decsymRule_failed ht hr hsym)
    · obtain ⟨n, hsym⟩ := decodeSym_invalid 0 hpf hlimit hleaves
      exact congrArg _ (decsymRule_failed ht hr hsym)

end Sys2Proof.Machine
end

section
/-! SUPPORT. How DECODE and DECALL fail after some symbols, and the symbol that fails (spec/45_decoder.md R162,
R163). -/

namespace Sys2Proof.Machine

/-- Under every value of the parameters, the table of TVALID = 1 has no code that is the start of another (R123,
properties 1 and 2). -/
theorem prefixFree_of_tableInv {p : Params} {s : State} (htab : TableInv p s) (ht : s.tvalid = true) :
    PrefixFree s := by
  obtain ⟨hv, hcode⟩ := htab ht
  unfold PrefixFree
  rw [hcode]
  refine ⟨fun x hx => canonicalCodes_lt hv hx, fun x y hx hy hne hle => ?_⟩
  have hnat : x.toNat ≠ y.toNat := fun e => hne (BitVec.eq_of_toNat_eq e)
  by_cases hxy : keyBefore s.len x y
  · exact canonicalCodes_truncated_ne hv hx hy hxy
  · unfold keyBefore at hxy
    have heq : lenOf s.len x = lenOf s.len y := by omega
    have hother := canonicalCodes_truncated_ne hv hy hx (.inr ⟨heq.symm, by omega⟩)
    simp only [heq, Nat.sub_self, Nat.pow_zero, Nat.div_one] at hother ⊢
    exact hother.symm

section
variable {p : Params} {s t : State} {xs : List Symbol}

/-! ### What decoding leaves alone -/

theorem streamEndsMidCode_of_streamless (h : t.streamless = s.streamless) :
    StreamEndsMidCode t = StreamEndsMidCode s := by
  show StreamEndsMidCode t.streamless = StreamEndsMidCode s.streamless
  rw [h]

theorem streamLeavesTree_of_streamless (h : t.streamless = s.streamless) :
    StreamLeavesTree t = StreamLeavesTree s := by
  show StreamLeavesTree t.streamless = StreamLeavesTree s.streamless
  rw [h]

theorem Decoded.limit_lt (h : Decoded s t xs) (hr : ReaderOk p s) : t.limit < 2 ^ 32 := by
  have := limit_le_of_readerOk hr
  rw [State.limit_of_streamless h.same]
  omega

/-! ### The symbol that fails -/

/-- After the symbols `xs` the next one raises, `n` bytes of OBUF having been written since `s`. -/
def NextRaises (p : Params) (s : State) (xs : List Symbol) (e : ErrCode) (info : Word) (n : Nat) : Prop :=
  ∀ t, Decoded s t xs → ∃ u, decodeOne p xs.length t = .raised e info u ∧ bytesWritten s u = n

/-- A symbol that `DecodeSym` does not find leaves OPTR after the symbols before it (R162). -/
theorem Decoded.decodeOne_raised {e : ErrCode} {info : Word} {n : Nat} (h : Decoded s t xs)
    (hsym : decodeSym xs.length t = .raised e info (t.skipBits n)) :
    ∃ u, decodeOne p xs.length t = .raised e info u ∧ bytesWritten s u = bytesCompleted s (8 * xs.length) := by
  obtain ⟨hoptr, -⟩ := h.appended
  rw [byteBits_length] at hoptr
  exact ⟨t.skipBits n, by rw [decodeOne, hsym, Result.bind_raised], Nat.sub_eq_of_eq_add' hoptr⟩

theorem nextRaises_truncated (hpf : PrefixFree s) (hr : ReaderOk p s)
    (hend : StreamEndsMidCode s (s.brpos.toNat + (codesOf s xs).length)) :
    NextRaises p s xs .truncatedPayload (BitVec.ofNat 32 xs.length) (bytesCompleted s (8 * xs.length)) := by
  intro t ht
  rw [← ht.brpos, ← streamEndsMidCode_of_streamless ht.same] at hend
  obtain ⟨n, hsym⟩ := decodeSym_truncated xs.length (hpf.of_streamless ht.same) (ht.limit_lt hr) hend
  exact ht.decodeOne_raised hsym

theorem nextRaises_invalid {b : Nat} (hpf : PrefixFree s) (hr : ReaderOk p s)
    (hleaves : StreamLeavesTree s (s.brpos.toNat + (codesOf s xs).length) b) :
    NextRaises p s xs .invalidCode (BitVec.ofNat 32 b) (bytesCompleted s (8 * xs.length)) := by
  intro t ht
  rw [← ht.brpos, ← streamLeavesTree_of_streamless ht.same] at hleaves
  obtain ⟨n, hsym⟩ := decodeSym_invalid xs.length (hpf.of_streamless ht.same) (ht.limit_lt hr) hleaves
  exact ht.decodeOne_raised hsym

/-- A symbol decoded that does not fit overflows, OBUF being filled up (R162, R184). -/
theorem nextRaises_overflow {x : Symbol} (h : Decodable p s xs) (hx : present s x)
    (hstream : StreamStartsWith s (codesOf s (xs ++ [x]))) (hfull : ¬ RoomFor p s (8 * (xs.length + 1))) :
    NextRaises p s xs .outputOverflow 0 (p.obufBytes - s.optr.toNat) := by
  intro t ht
  have hcodes := codesOf_of_streamless ht.same
  have happ := ht.appended
  rw [codesOf_append] at hstream
  obtain ⟨-, hrest⟩ := hstream.append
  have hnext := hrest t ht.same ht.brpos
  rw [← hcodes, codesOf_cons, codesOf_nil, List.append_nil] at hnext
  rw [← present_of_streamless ht.same] at hx
  have hfind := decodeSym_finds xs.length (h.table.of_streamless ht.same) hx (ht.limit_lt h.reader) hnext
  have hwriter := happ.writerInv (p := p) (by simpa using h.room)
  have hnofit : ¬ RoomFor p t 8 := by rwa [happ.roomFor_iff, byteBits_length, ← Nat.mul_succ]
  obtain ⟨u, hu, hend⟩ := putBits_overflows (s := t.skipBits (lenOf t.len x)) 8 x.toNat hwriter hnofit
  refine ⟨u, ?_, congrArg (· - s.optr.toNat) hend⟩
  rw [decodeOne, hfind, Result.bind_ok]
  exact hu

/-! ### The commands -/

/-- DECODE fails after `xs` as the next symbol does, if one is due (R162). -/
theorem Decodable.decode_failed {e : ErrCode} {info : Word} {n : Nat} (h : Decodable p s xs) (ht : s.tvalid = true)
    (hnext : NextRaises p s xs e info n) (hdue : xs.length < s.dcnt.toNat) :
    Failed e info n s (runCommand (decodeRule p) s) := by
  obtain ⟨t, hdecoded, hfrom, -⟩ := h.loops 0
  obtain ⟨u, hu, rfl⟩ := hnext t hdecoded
  obtain ⟨m, hm⟩ := Nat.exists_eq_add_of_lt hdue
  have hrule : decodeRule p s = .raised e info u := by
    rw [decodeRule, checkDecoder_ok ht h.reader, Result.bind_ok, hm, Nat.add_assoc, hfrom, Nat.zero_add, decodeFrom, hu,
      Result.bind_raised, Result.bind_raised]
  rw [runCommand_raised hrule]
  exact takeError_failed e info s u

/-- DECALL fails after `xs` as the next symbol does, if the stream has not ended (R163). -/
theorem Decodable.decall_failed {e : ErrCode} {info : Word} {n : Nat} (h : Decodable p s xs) (ht : s.tvalid = true)
    (hnext : NextRaises p s xs e info n) (hmore : s.brpos.toNat + (codesOf s xs).length < s.limit) :
    Failed e info n s (runCommand (decallRule p) s) := by
  obtain ⟨t, hdecoded, -, hall⟩ := h.loops 0
  obtain ⟨u, hu, rfl⟩ := hnext t hdecoded
  have hlength := length_le_codesOf_length h.present
  have hbit : t.brpos.toNat < t.limit := by rwa [hdecoded.brpos, State.limit_of_streamless hdecoded.same]
  obtain ⟨m, hm⟩ := Nat.exists_eq_add_of_lt (show xs.length < s.limit - s.brpos.toNat by omega)
  have hrule : decallRule p s = .raised e info u := by
    rw [decallRule, checkDecoder_ok ht h.reader, Result.bind_ok, hm, Nat.add_assoc, hall, Nat.zero_add, decodeAllFrom,
      if_pos hbit, hu, Result.bind_raised, Result.bind_raised]
  rw [runCommand_raised hrule]
  exact takeError_failed e info s u

/-- A check of the decoding commands that raises fails both commands with nothing written (R162, R163). -/
theorem decode_decall_of_check_raised {e : ErrCode} {info : Word} (h : checkDecoder p s = .raised e info s) :
    runCommand (decodeRule p) s = FailedClean e info s ∧ runCommand (decallRule p) s = FailedClean e info s :=
  ⟨runCommand_raised_clean (by rw [decodeRule, h, Result.bind_raised]),
    runCommand_raised_clean (by rw [decallRule, h, Result.bind_raised])⟩

end

end Sys2Proof.Machine
end

section
/-! PROOFS. How DECODE and DECALL fail (spec/45_decoder.md R162, R163). -/

namespace Sys2Proof.Machine

/-- Settles O43: the checks raise in the start state; after the symbols that can be decoded, the next one raises, and
both commands fail as it does. -/
theorem decodeAndDecallFailures : Obligations.DecodeAndDecallFailures := by
  refine ⟨fun p s => ⟨fun ht => ?_, fun ht hr => ?_, fun ht hr htab hw xs hxs hstream hroom => ?_⟩,
    fun s => ⟨exec_eq .decode s, exec_eq .decall s⟩⟩
  · exact decode_decall_of_check_raised (checkDecoder_of_not_tvalid ht)
  · exact decode_decall_of_check_raised (checkDecoder_of_not_readerOk ht hr)
  · have hpf := prefixFree_of_tableInv htab ht
    have hdec : Decodable p s xs := ⟨hpf, hr, hw, hxs, hstream, hroom⟩
    refine ⟨fun hdue hend => ?_, fun hmore hend => ?_, fun b hleaves => ?_, fun x hx hnext hfull => ?_⟩
    · exact hdec.decode_failed ht (nextRaises_truncated hpf hr hend) hdue
    · exact hdec.decall_failed ht (nextRaises_truncated hpf hr hend) hmore
    · have hraises := nextRaises_invalid hpf hr hleaves
      obtain ⟨hge, hlt, -⟩ := hleaves
      exact ⟨hdec.decode_failed ht hraises, hdec.decall_failed ht hraises (hge.trans_lt hlt)⟩
    · have hraises := nextRaises_overflow hdec hx hnext hfull
      obtain ⟨hend, -⟩ := hnext
      rw [codesOf_append, List.length_append, codesOf_cons, codesOf_nil, List.append_nil, codeBits_length] at hend
      exact ⟨hdec.decode_failed ht hraises, hdec.decall_failed ht hraises (by unfold present at hx; omega)⟩

end Sys2Proof.Machine
end

section
/-! SUPPORT. A stream that ends before its codes do (spec/45_decoder.md R165). -/

namespace Sys2Proof.Machine

@[simp] theorem readBits_length (s : State) (q n : Nat) : (readBits s q n).length = n := by simp [readBits]

/-- A bit string shorter than the codes of a list ends inside one of them, after the codes before it. -/
theorem exists_cut_codesOf {s : State} {q n : Nat} {xs : List Symbol} (hxs : ∀ x ∈ xs, present s x)
    (hprefix : readBits s q n <+: codesOf s xs) (hshort : n < (codesOf s xs).length) :
    ∃ before, before <+: xs ∧ before.length < xs.length ∧ (codesOf s before).length ≤ n
      ∧ readBits s q (codesOf s before).length = codesOf s before
      ∧ AtInternalNode s (q + (codesOf s before).length) (n - (codesOf s before).length) := by
  induction xs generalizing q n with
  | nil => cases hshort
  | cons x xs ih =>
    obtain ⟨hx, hxs⟩ := List.forall_mem_cons.1 hxs
    rw [codesOf_cons] at hprefix hshort
    rcases Nat.lt_or_ge n (lenOf s.len x) with hlt | hge
    · refine ⟨[], List.nil_prefix, by simp, Nat.zero_le n, rfl, x, hx, hlt, ?_⟩
      exact List.prefix_of_prefix_length_le hprefix (List.prefix_append _ _) (by simpa using hlt.le)
    · obtain ⟨m, rfl⟩ := Nat.exists_eq_add_of_le hge
      rw [List.length_append, codeBits_length] at hshort
      rw [readBits_add] at hprefix
      have hfirst : readBits s q (lenOf s.len x) = codeBits s x :=
        (List.prefix_of_prefix_length_le ((List.prefix_append _ _).trans hprefix) (List.prefix_append _ _)
          (by simp)).eq_of_length (by simp)
      rw [hfirst, List.prefix_append_right_inj] at hprefix
      obtain ⟨before, hbefore, hless, hle, hread, hnode⟩ := ih hxs hprefix (by omega)
      have hlen : (codesOf s (x :: before)).length = lenOf s.len x + (codesOf s before).length := by simp
      refine ⟨x :: before, List.cons_prefix_cons.2 ⟨rfl, hbefore⟩, Nat.succ_lt_succ hless, by omega, ?_, ?_⟩
      · rw [hlen, readBits_add, hfirst, hread, codesOf_cons]
      · rwa [hlen, ← Nat.add_assoc, Nat.add_sub_add_left]

/-- The first bytes of those that whole bits appended to an aligned writer filled, read as a stream from IBUF, are the
first of those bits. -/
theorem Appended.readBits_moved_prefix {s u v : State} {bits : List Bool} {n : Nat} (h : Appended s u bits)
    (hc : s.bwcnt = 0) (hwhole : bits.length % 8 = 0) (hn : n ≤ u.optr.toNat - s.optr.toNat)
    (hmoved : ∀ k, k < n → v.ibufByte k = u.obufByte (s.optr.toNat + k)) : readBits v 0 (8 * n) <+: bits := by
  obtain ⟨m, hm⟩ := Nat.exists_eq_add_of_le hn
  have hbytes := h.byteBits_written hc hwhole
  rw [hm, List.range_add, List.map_append, byteBits_append] at hbytes
  rw [readBits_bytes, List.map_congr_left fun k hk => hmoved k (List.mem_range.1 hk), ← hbytes]
  exact List.prefix_append _ _

/-- BRPAD only shortens a stream of BRLEN bytes (R132). -/
theorem readBits_limit_prefix (v : State) : readBits v 0 v.limit <+: readBits v 0 (8 * v.brlen.toNat) := by
  obtain ⟨m, hm⟩ := Nat.exists_eq_add_of_le (show v.limit ≤ 8 * v.brlen.toNat from Nat.sub_le _ _)
  rw [hm, readBits_add]
  exact List.prefix_append _ _

/-- DECODE of `xs` from a stream that ends before their codes do fails with TruncatedPayload (R162, R165). -/
theorem decode_of_short_stream {p : Params} {v : State} {xs : List Symbol} (hpf : PrefixFree v) (ht : v.tvalid = true)
    (hr : ReaderOk p v) (hw : WriterInv p v) (hpos : v.brpos = 0) (hcount : v.dcnt.toNat = xs.length)
    (hroom : RoomFor p v (8 * xs.length)) (hxs : ∀ x ∈ xs, present v x)
    (hprefix : readBits v 0 v.limit <+: codesOf v xs) (hshort : v.limit < (codesOf v xs).length) :
    (runCommand (decodeRule p) v).errCode = .truncatedPayload := by
  obtain ⟨before, hbefore, hless, hle, hread, hnode⟩ := exists_cut_codesOf hxs hprefix hshort
  have hzero : v.brpos.toNat = 0 := congrArg BitVec.toNat hpos
  have hdec : Decodable p v before := {
    table := hpf
    reader := hr
    writer := hw
    present := fun x hx => hxs x (hbefore.mem hx)
    stream := fun _ => by
      rw [StreamStartsWith, hzero, Nat.zero_add]
      exact ⟨hle, hread⟩
    room := hroom.mono (by omega) }
  have hend : StreamEndsMidCode v (v.brpos.toNat + (codesOf v before).length) := by
    rw [hzero, Nat.zero_add]
    rw [Nat.zero_add] at hnode
    exact .inr hnode
  obtain ⟨hfailed, -⟩ := hdec.decode_failed ht (nextRaises_truncated hpf hr hend) (by omega)
  rw [hfailed]

end Sys2Proof.Machine
end

section
/-! PROOFS. Truncation (spec/45_decoder.md R165). -/

namespace Sys2Proof.Machine

/-- Settles O45: the codes are longer than all bytes but the last, so that the shortened stream ends before they do. -/
theorem truncatedPayloadIsDetected : Obligations.TruncatedPayloadIsDetected := by
  intro s t u v hw htab hc hcount _ hencode ht hflush hu hlen hvt hvtab _ hvo hvc hva hvpos hdcnt hbrlen hreader hroom
    hmoved
  obtain ⟨hst, hpresent, hpad, happ⟩ := encode_flush_appends hw hc hencode ht hflush hu
  have hcodes := codesOf_eq_of_len htab hst hvtab hvt hlen
  have hlength := inputBytes_length s
  have hbits := length_le_codesOf_length hpresent
  have hwhole : (codesOf s (inputBytes s) ++ List.replicate u.pad.toNat false).length % 8 = 0 := by
    rw [List.length_append, List.length_replicate]
    omega
  have hlimit : v.limit < (codesOf s (inputBytes s)).length := by
    obtain ⟨hoptr, -⟩ := happ
    rw [bytesCompleted, hc, List.length_append, List.length_replicate] at hoptr
    have hzero : (0 : BitVec 4).toNat = 0 := rfl
    unfold State.limit
    omega
  have hmovedBits := happ.readBits_moved_prefix hc hwhole (Nat.sub_le _ 1) hmoved
  rw [← hbrlen] at hmovedBits
  have hprefix : readBits v 0 v.limit <+: codesOf s (inputBytes s) :=
    List.prefix_of_prefix_length_le ((readBits_limit_prefix v).trans hmovedBits) (List.prefix_append _ _)
      (by simpa using hlimit.le)
  refine ⟨_, exec_eq .decode v, decode_of_short_stream (PrefixFree.of_tableInv hvtab hvt) hvt hreader
    (by simp [WriterInv, hvo, hvc, hva]) hvpos (by rw [hdcnt, hlength]) ?_ ?_ (hcodes ▸ hprefix) (hcodes ▸ hlimit)⟩
  · rw [hlength, RoomFor, hvo, hvc]
    simpa using hroom
  · simpa only [present, hlen] using hpresent

end Sys2Proof.Machine
end

section
/-! SUPPORT. How a command fails (spec/60_exceptions.md R180-R182): a failed command took a listed error, in a state its
rule reached, and OPTR of that state bounds the bytes of OBUF left unspecified. -/

namespace Sys2Proof.Machine

/-- With no error recorded, or for the CLRERR word, a pending command that decodes runs (R180). -/
theorem engineStep_runs {s : State} {i : Instr} (h : s.errCode = .noError ∨ s.pending = clrerrWord)
    (hd : decode s.pending = .ok i) : engineStep s = exec i s := by
  have hrun : ¬ (s.errCode ≠ .noError ∧ s.pending ≠ clrerrWord) := fun ⟨herr, hw⟩ => h.elim herr hw
  rw [engineStep, if_neg hrun, hd]

/-- The loops of the writer and the reader leave ERRCODE alone. -/
theorem StreamFrame.errCode {p : Params} {s t : State} (h : StreamFrame p s t) : t.errCode = s.errCode := by
  rw [State.eq_of_streamless h.same]

/-- No rule but CLRERR's writes ERRCODE (R28, R101). -/
theorem Footprint.errCode {i : Instr} {s u : State} (h : Footprint s u i) :
    i = .clrerr ∨ u.errCode = s.errCode := by
  cases i with
  | clrerr => exact .inl rfl
  | nop | bwreset | brreset =>
    obtain rfl := h
    exact .inr rfl
  | getbits | decsym =>
    obtain ⟨_, _, rfl⟩ := h
    exact .inr rfl
  | fclr | facc | fscan =>
    obtain ⟨_, _, _, rfl⟩ := h
    exact .inr rfl
  | tbuild => rcases h with rfl | ⟨_, rfl⟩ <;> exact .inr rfl
  | putbits | encsym | encode => exact .inr h.1.errCode
  | flush =>
    obtain ⟨u, _, hu, -, rfl⟩ := h
    exact .inr hu.errCode
  | decode | decall =>
    obtain ⟨u, _, hu, rfl⟩ := h
    exact .inr hu.errCode

/-- A rule that moves OPTR leaves it within OBUF (R36). -/
theorem Footprint.optr_bound {i : Instr} {s u : State} (h : Footprint s u i) :
    u.optr = s.optr ∨ u.optr.toNat ≤ Config.params.obufBytes := by
  cases i with
  | putbits | encsym | encode => exact h.1.bound
  | flush =>
    obtain ⟨u, _, hu, -, rfl⟩ := h
    exact hu.bound
  | decode | decall =>
    obtain ⟨u, _, hu, rfl⟩ := h
    exact hu.bound
  | bwreset =>
    obtain rfl := h
    exact .inr (Nat.zero_le _)
  | nop | clrerr | fclr | facc | fscan | tbuild | brreset | getbits | decsym =>
    obtain ⟨hoptr, -⟩ : u.optr = s.optr ∧ u.bwacc = s.bwacc ∧ u.bwcnt = s.bwcnt ∧ u.obuf = s.obuf := by
      simpa using h.frame.writer
    exact .inl hoptr

/-- A command that leaves an error where there was none took a listed error in a state within its footprint. -/
theorem exec_failed {i : Instr} {s t : State} (hs : s.errCode = .noError) (h : exec i s = .next t)
    (ht : t.errCode ≠ .noError) :
    ∃ u e info, Footprint s u i ∧ e ∈ mayRaise i ∧ t = (takeError e info s u).complete := by
  obtain ⟨u, hf, rfl | ⟨e, info, he, rfl⟩⟩ := exec_cases h
  · rcases hf.errCode with rfl | hkept
    · obtain ⟨-, hexec, -⟩ := commandsThatCannotFailComplete s
      rw [hexec, Host.Outcome.next.injEq] at h
      exact absurd (congrArg State.errCode h).symm ht
    · exact absurd (hkept.trans hs) ht
  · exact ⟨u, e, info, hf, he, rfl⟩

end Sys2Proof.Machine
end

section
/-! PROOFS. Running, refusing and failing a command (spec/60_exceptions.md R180-R186). -/

namespace Sys2Proof.Machine

/-- Settles O5: the turn is an engine step, which runs the decoded command. -/
theorem stepRunsDecodedCommand : Obligations.StepRunsDecodedCommand := by
  intro s rest i hturn hrun hd
  obtain ⟨-, -, hstep⟩ := stepTakesTheFirstScriptEntry s rest
  exact (hstep hturn).trans (engineStep_runs hrun hd)

/-- Settles O8: the turn is an engine step, which refuses the word. -/
theorem refusedCommandChangesOnlyBusyAndDone : Obligations.RefusedCommandChangesOnlyBusyAndDone := by
  intro s rest hturn herr hw
  obtain ⟨-, -, hstep⟩ := stepTakesTheFirstScriptEntry s rest
  exact (hstep hturn).trans (engineStep_refused herr hw)

/-- Settles O46: the bytes the command wrote end at its OPTR, which is within OBUF wherever the command moved it. -/
theorem failedCommandIsRolledBack : Obligations.FailedCommandIsRolledBack := by
  intro i s t hs h ht
  obtain ⟨u, e, info, hf, -, rfl⟩ := exec_failed hs h ht
  refine ⟨rfl, fun k hk => takeError_obufByte (e := e) (i := info) ?_⟩
  rcases hf.optr_bound with hoptr | hbound
  · rw [bytesWritten, hoptr]
    omega
  · rw [bytesWritten]
    omega

/-- Settles O47: the error taken is one that the command's rule raises. -/
theorem errorsEachCommandRaises : Obligations.ErrorsEachCommandRaises := by
  intro i s t hs h ht
  obtain ⟨u, e, info, -, he, rfl⟩ := exec_failed hs h ht
  exact he

end Sys2Proof.Machine
end
